-- ==== Sys2Proof/Word.lean ====
section
/-!
DEFINITION. The word types: a command, response or register word is 32 bits (00_scope.md R5, 10_state.md R22), a FILE cell 8
(20_memory.md R60).
-/

namespace Sys2Proof

/-- A 32-bit command, response or register word (R22, R60). -/
abbrev Word := BitVec 32

/-- One byte of FILE (R60), and the width of IMM8 (R80). -/
abbrev Byte := BitVec 8

end Sys2Proof
end

