-- ==== Sys2Proof/Config.lean ====
section
/-!
DEFINITION. What an implementation fixes: the parameters of 00_scope.md R5. The fixed ones are constants; the three that the
spec leaves to the implementation (92_eei_decisions.md D11, D21, D44) are the fields of `Config`, which `State` carries
and no step changes (assumption log 6). The spec leaves no result of an instruction undefined, so there is no free value.
-/

namespace Sys2Proof

/-- The two values of the parameter XOROUT (R5, D11). -/
inductive XorOut where
  | ones   -- 0xFFFFFFFF, the value for this hardware
  | zero   -- 0x00000000, the alternative
  deriving DecidableEq, Repr

/-- The two values of the parameter TARGET_NAMED_BYTES (R5, D21). -/
inductive NamedBytes where
  | four   -- 4, the value for this hardware
  | one    -- 1, the alternative
  deriving DecidableEq, Repr

/-- The parameters of R5 that are not fixed. -/
structure Config where
  xorOut     : XorOut
  namedBytes : NamedBytes
  hasParser  : Bool
  deriving DecidableEq, Repr

/-- The column 'value for this hardware' of R5. -/
def Config.default : Config := { xorOut := .ones, namedBytes := .four, hasParser := true }

/-- XOROUT as a word (R5). -/
def Config.xorWord (c : Config) : Word :=
  match c.xorOut with
  | .ones => 0xFFFFFFFF
  | .zero => 0x00000000

/-- TARGET_NAMED_BYTES, called NB in the rules (R5, 41_parser.md). -/
def Config.nb (c : Config) : Nat :=
  match c.namedBytes with
  | .four => 4
  | .one  => 1

/-- TARGET_HDR_LEN = 270 + TARGET_NAMED_BYTES, called TH in the rules (R5). -/
def Config.targetHdrLen (c : Config) : Nat := 270 + c.nb

/-- POLY (R5). -/
def Config.poly : Word := 0xEDB88320

/-- INIT (R5). -/
def Config.init : Word := 0xFFFFFFFF

/-- SUFFIX_LEN (R5). -/
def Config.suffixLen : Nat := 16

/-- DFUSE_PREFIX_LEN (R5). -/
def Config.dfusePrefixLen : Nat := 11

/-- ELEMENT_HDR_LEN (R5). -/
def Config.elementHdrLen : Nat := 8

end Sys2Proof
end

