-- ==== Sys2Proof/Syntax.lean ====
section
/-!
DEFINITION. The command set as syntax: register names (10_state.md R22), the 17 commands of 30_encoding.md R84, and nothing
about what they do.
-/

namespace Sys2Proof

/-- The 32 register numbers of R22, by name; `r31` is the reserved number 31 (R48). -/
inductive Reg where
  | acc | cnt | res | base | len | exp | status | ecode
  | eoff | eexp | eact | flen | tcnt | isize | pver | sdp
  | svd | slen | scrc | otgt | oelem | oaddr | ooff | osize
  | cur | tend | tidx | nbel | eidx | tsum | id | r31
  deriving DecidableEq, Repr

/-- The commands of R84, one constructor per row of spec/opcode_table.json. An 8-bit operand is IMM8, a register is
the REG field, a 32-bit operand is V, the command's second word (R83). -/
inductive Instr where
  | nop
  | crcInit
  | crcByte (d : Byte)
  | crcWord (v : Word)
  | crcRange
  | crcCheck
  | crcLoad (v : Word)
  | crcResume (v : Word)
  | prsStart
  | prsStep
  | prsNext
  | prsRun
  | prsPeek
  | rd (r : Reg)
  | wr (r : Reg) (v : Word)
  | fclr
  | srst
  deriving DecidableEq, Repr

end Sys2Proof
end

