-- ==== Sys2Proof/WellFormed.lean ====
section
/-!
DEFINITION. Which commands are well formed: what 30_encoding.md R85 (c) and (d) ask of the operands in every configuration. (R85 (a)
and (b), the word's shape, are the decoder's; what depends on HAS_PARSER is `Instr.legal`, in Decode.lean.) An ill-formed command
is still an instruction: executing it raises IllegalCommand (R85, R87).
-/

namespace Sys2Proof

/-- The access column of R22. -/
inductive Access where
  | readWrite   -- RW
  | readOnly    -- RO
  | none        -- the reserved number 31 (R48)
  deriving DecidableEq, Repr

/-- The access column of R22. FLEN's further restriction is R172's. -/
def Reg.access : Reg → Access
  | .acc | .cnt | .base | .len | .exp | .flen => .readWrite
  | .r31 => .none
  | .res | .status | .ecode | .eoff | .eexp | .eact
  | .tcnt | .isize | .pver | .sdp | .svd | .slen | .scrc
  | .otgt | .oelem | .oaddr | .ooff | .osize
  | .cur | .tend | .tidx | .nbel | .eidx | .tsum | .id => .readOnly

/-- R85 (c) and (d) in every configuration: no RD of register 31, no WR of a register that is not RW. -/
def Instr.wellFormed : Instr → Bool
  | .rd r => r.access != .none
  | .wr r _ => r.access == .readWrite
  | .nop | .crcInit | .crcByte _ | .crcWord _ | .crcRange | .crcCheck | .crcLoad _ | .crcResume _
  | .prsStart | .prsStep | .prsNext | .prsRun | .prsPeek | .fclr | .srst => true

end Sys2Proof
end

