-- ==== Sys2Proof/Decode.lean ====
section
/-!
DEFINITION. The command encoding (30_encoding.md): fields (R80), formats (R81), length (R82), the opcode map (R84),
legality (R85, R91), and the encoder, written from the same tables. Commands are 32-bit words on a port, so no byte
order enters (20_memory.md R67).
-/

namespace Sys2Proof

/-- The field OPC, bits 31:26 (R80). -/
def opcOf (w : Word) : BitVec 6 := w.extractLsb' 26 6

/-- The field REG, bits 25:21 (R80). -/
def regOf (w : Word) : BitVec 5 := w.extractLsb' 21 5

/-- The field IMM8, bits 7:0 (R80). -/
def imm8Of (w : Word) : Byte := w.extractLsb' 0 8

/-- A word from its fields, RSV being 0 (R80). -/
def packWord (opc : BitVec 6) (reg : BitVec 5) (imm8 : Byte) : Word := opc ++ reg ++ (0#13) ++ imm8

/-- The register number of R22. -/
def Reg.num : Reg → BitVec 5
  | .acc => 0 | .cnt => 1 | .res => 2 | .base => 3 | .len => 4 | .exp => 5 | .status => 6 | .ecode => 7
  | .eoff => 8 | .eexp => 9 | .eact => 10 | .flen => 11 | .tcnt => 12 | .isize => 13 | .pver => 14 | .sdp => 15
  | .svd => 16 | .slen => 17 | .scrc => 18 | .otgt => 19 | .oelem => 20 | .oaddr => 21 | .ooff => 22 | .osize => 23
  | .cur => 24 | .tend => 25 | .tidx => 26 | .nbel => 27 | .eidx => 28 | .tsum => 29 | .id => 30 | .r31 => 31

/-- The registers in the order of their numbers (R22). -/
def Reg.all : List Reg :=
  [.acc, .cnt, .res, .base, .len, .exp, .status, .ecode, .eoff, .eexp, .eact, .flen, .tcnt, .isize, .pver, .sdp,
   .svd, .slen, .scrc, .otgt, .oelem, .oaddr, .ooff, .osize, .cur, .tend, .tidx, .nbel, .eidx, .tsum, .id, .r31]

/-- The register a number names (R22). -/
def Reg.ofNum (n : BitVec 5) : Reg := Reg.all.getD n.toNat .r31

/-- The five formats of R81. -/
inductive Format where
  | n | b | r | w | rw
  deriving DecidableEq, Repr

/-- The column 'words' of R81. -/
def Format.words : Format → Nat
  | .n | .b | .r => 1
  | .w | .rw => 2

/-- The column 'word-0 mask' of R81. -/
def Format.mask : Format → Word
  | .n | .w => 0xFFFFFFFF
  | .b => 0xFFFFFF00
  | .r | .rw => 0xFC1FFFFF

/-- The mnemonics of R84, each an opcode without its operands. -/
inductive Op where
  | nop | crcInit | crcByte | crcWord | crcRange | crcCheck | crcLoad | crcResume
  | prsStart | prsStep | prsNext | prsRun | prsPeek | rd | wr | fclr | srst
  deriving DecidableEq, Repr

/-- A row of the opcode map R84: its OPC, its mnemonic and its format. -/
structure OpRow where
  opc : BitVec 6
  op  : Op
  fmt : Format
  deriving DecidableEq, Repr

/-- The column 'word-0 match' of R84: OPC in its place, every other bit 0. -/
def OpRow.pattern (r : OpRow) : Word := packWord r.opc 0 0

/-- The complete opcode map (R84). Every other OPC value is reserved (R86). -/
def opTable : List OpRow :=
  [⟨0x00, .nop, .n⟩, ⟨0x01, .crcInit, .n⟩, ⟨0x02, .crcByte, .b⟩, ⟨0x03, .crcWord, .w⟩, ⟨0x04, .crcRange, .n⟩,
   ⟨0x05, .crcCheck, .n⟩, ⟨0x06, .crcLoad, .w⟩, ⟨0x07, .crcResume, .w⟩] ++
  [⟨0x10, .prsStart, .n⟩, ⟨0x11, .prsStep, .n⟩, ⟨0x12, .prsNext, .n⟩, ⟨0x13, .prsRun, .n⟩, ⟨0x14, .prsPeek, .n⟩] ++
  [⟨0x20, .rd, .r⟩, ⟨0x21, .wr, .rw⟩, ⟨0x3E, .fclr, .n⟩, ⟨0x3F, .srst, .n⟩]

/-- The row of an OPC value, if it is assigned. -/
def rowOf (opc : BitVec 6) : Option OpRow := opTable.find? (fun r => r.opc == opc)

/-- R82: OPC alone makes a command two words long, legal or not. -/
def isTwoWord (w : Word) : Bool :=
  opcOf w == 0x03 || opcOf w == 0x06 || opcOf w == 0x07 || opcOf w == 0x21

/-- Why a word is no command: R85 (a), R85 (b), or not enough words (R82). -/
inductive DecodeError where
  | reservedOpcode    -- R85 (a), R86: OPC is not in R84
  | reservedField     -- R85 (b), R86: a bit outside the format's operands is nonzero
  | noWord            -- the list of words is empty
  | missingOperand    -- the second word of a two-word command is not there (R82, R226)
  deriving DecidableEq, Repr

/-- Operand assembly (R83): IMM8 and REG from word 0, V from word 1, nothing scaled or extended. -/
def Op.build (o : Op) (w0 v : Word) : Instr :=
  match o with
  | .nop => .nop
  | .crcInit => .crcInit
  | .crcByte => .crcByte (imm8Of w0)
  | .crcWord => .crcWord v
  | .crcRange => .crcRange
  | .crcCheck => .crcCheck
  | .crcLoad => .crcLoad v
  | .crcResume => .crcResume v
  | .prsStart => .prsStart
  | .prsStep => .prsStep
  | .prsNext => .prsNext
  | .prsRun => .prsRun
  | .prsPeek => .prsPeek
  | .rd => .rd (Reg.ofNum (regOf w0))
  | .wr => .wr (Reg.ofNum (regOf w0)) v
  | .fclr => .fclr
  | .srst => .srst

/-- The command whose first word is `w0`, its second word being `v` where it has one: the row is OPC's, and
`(word0 & mask) = match` must hold (R81, R85). `v` is never checked (R85). -/
def decodeWords (w0 v : Word) : Except DecodeError Instr :=
  match rowOf (opcOf w0) with
  | none => .error .reservedOpcode
  | some r => if w0 &&& r.fmt.mask = r.pattern then .ok (r.op.build w0 v) else .error .reservedField

/-- The first command of a list of words and the words after it. -/
def decode : List Word → Except DecodeError (Instr × List Word)
  | [] => .error .noWord
  | w0 :: rest =>
    if isTwoWord w0 then
      match rest with
      | [] => .error .missingOperand
      | v :: rest' => (decodeWords w0 v).map (fun i => (i, rest'))
    else (decodeWords w0 0).map (fun i => (i, rest))

/-- The first word of a command (R81, R84). -/
def Instr.word0 : Instr → Word
  | .nop => packWord 0x00 0 0
  | .crcInit => packWord 0x01 0 0
  | .crcByte d => packWord 0x02 0 d
  | .crcWord _ => packWord 0x03 0 0
  | .crcRange => packWord 0x04 0 0
  | .crcCheck => packWord 0x05 0 0
  | .crcLoad _ => packWord 0x06 0 0
  | .crcResume _ => packWord 0x07 0 0
  | .prsStart => packWord 0x10 0 0
  | .prsStep => packWord 0x11 0 0
  | .prsNext => packWord 0x12 0 0
  | .prsRun => packWord 0x13 0 0
  | .prsPeek => packWord 0x14 0 0
  | .rd r => packWord 0x20 r.num 0
  | .wr r _ => packWord 0x21 r.num 0
  | .fclr => packWord 0x3E 0 0
  | .srst => packWord 0x3F 0 0

/-- The second word of a two-word command (R81, R83). -/
def Instr.word1 : Instr → Option Word
  | .crcWord v => some v
  | .crcLoad v => some v
  | .crcResume v => some v
  | .wr _ v => some v
  | .nop | .crcInit | .crcByte _ | .crcRange | .crcCheck | .prsStart | .prsStep | .prsNext | .prsRun | .prsPeek
  | .rd _ | .fclr | .srst => none

/-- The words of a command (R89: word 0, then word 1 for the formats W and RW). -/
def encode (i : Instr) : List Word := i.word0 :: i.word1.toList

/-! ## Legality -/

/-- Registers 12 to 29, which exist only when HAS_PARSER = 1 (R22, R49). -/
def Reg.isParser : Reg → Bool
  | .tcnt | .isize | .pver | .sdp | .svd | .slen | .scrc
  | .otgt | .oelem | .oaddr | .ooff | .osize
  | .cur | .tend | .tidx | .nbel | .eidx | .tsum => true
  | .acc | .cnt | .res | .base | .len | .exp | .status | .ecode
  | .eoff | .eexp | .eact | .flen | .id | .r31 => false

/-- The column 'exists when' of R22. -/
def Reg.existsIn (c : Config) (r : Reg) : Bool := r != .r31 && (c.hasParser || !r.isParser)

/-- The PRS.* commands (R84, R85 (e)). -/
def Instr.isParser : Instr → Bool
  | .prsStart | .prsStep | .prsNext | .prsRun | .prsPeek => true
  | .nop | .crcInit | .crcByte _ | .crcWord _ | .crcRange | .crcCheck | .crcLoad _ | .crcResume _
  | .rd _ | .wr _ _ | .fclr | .srst => false

/-- R85 (c), (d) and (e) in the configuration `c`. -/
def Instr.legal (c : Config) (i : Instr) : Bool :=
  i.wellFormed && (c.hasParser || !i.isParser) &&
    match i with
    | .rd r => r.existsIn c
    | .wr r _ => r.existsIn c
    | .nop | .crcInit | .crcByte _ | .crcWord _ | .crcRange | .crcCheck | .crcLoad _ | .crcResume _
    | .prsStart | .prsStep | .prsNext | .prsRun | .prsPeek | .fclr | .srst => true

/-! ## The host's numbering -/

/-- The instruction the decoder reads from the words whose bits are `w`, the first word being the low 32 bits; bits at
and above `nbits` are 0. -/
def decodeTableWord (nbits w : Nat) : Option Instr :=
  let bits := w % 2 ^ nbits
  match decode [BitVec.ofNat 32 bits, BitVec.ofNat 32 (bits / 2 ^ 32)] with
  | .ok (i, _) => some i
  | .error _ => none

end Sys2Proof
end

