-- ==== Sys2Proof/Machine/State.lean ====
section
/-!
DEFINITION. The state of the machine as plain data: the registers of 10_state.md R22 and the STATUS fields of R29 to R39 in
groups, PEND (R50), and, because a step is a function of the state alone, the configuration (00_scope.md R5), FILE
(20_memory.md R61), the host's moves not yet taken (70_reset_and_hazards.md R228) and the responses given (30_encoding.md R88).
-/

namespace Sys2Proof.Machine

/-- Bytes by address: addresses strictly rising, no entry equal to what an unlisted address reads as (`Memory.wf`,
Machine/Ops.lean). -/
abbrev Memory := List Host.Cell

/-- The parser FSM state (R39); 10 to 15 are never produced (I10). -/
inductive Phase where
  | idle | suffix | sufcrc | dfusePrefix | plain | target | element | tclose | done | failed
  deriving DecidableEq, Repr

/-- The event codes of 60_exceptions.md R191; 10 to 255 are never produced. `checksumMismatch` is a warning and is never
recorded. -/
inductive FaultCode where
  | none | truncatedFile | badSignature | badTargetSignature | malformedPrefix | truncatedTarget
  | checksumMismatch | illegalCommand | rangeFault | sequenceError
  deriving DecidableEq, Repr

/-- ACC, CNT, BASE, LEN, EXP: registers 0, 1, 3, 4, 5 (R23 to R28). RES is a view (R25). -/
structure CrcRegs where
  acc  : Word
  cnt  : Word
  base : Word
  len  : Word
  exp  : Word
  deriving DecidableEq, Repr

/-- The fields of STATUS, register 6 (R29 to R39). -/
structure Status where
  matched   : Bool   -- MATCH, bit 0 (R30)
  checked   : Bool   -- CHECKED, bit 1 (R31)
  crcValid  : Bool   -- CRC_VALID, bit 2 (R32)
  warnCrc   : Bool   -- WARN_CRC, bit 3 (R33)
  kind      : Bool   -- KIND, bit 4 (R34)
  outValid  : Bool   -- OUT_VALID, bit 5 (R35)
  addrKnown : Bool   -- ADDR_KNOWN, bit 6 (R36)
  fault     : Bool   -- FAULT, bit 7 (R37)
  peek      : Bool   -- PEEK, bit 8 (R38)
  phase     : Phase  -- PHASE, bits 15:12 (R39)
  deriving DecidableEq, Repr

/-- ECODE, EOFF, EEXP, EACT: registers 7 to 10 (R40, R41). -/
structure FaultRecord where
  code : FaultCode
  off  : Word
  exp  : Word
  act  : Word
  deriving DecidableEq, Repr

/-- TCNT, ISIZE, PVER: registers 12 to 14 (R43). Bits 31:8 of TCNT and PVER read 0, so only bits 7:0 are held. -/
structure DfuseRegs where
  tcnt  : Byte
  isize : Word
  pver  : Byte
  deriving DecidableEq, Repr

/-- SDP, SVD, SLEN, SCRC: registers 15 to 18 (R44). Bits 31:8 of SLEN read 0, so only bits 7:0 are held. -/
structure SuffixRegs where
  sdp  : Word
  svd  : Word
  slen : Byte
  scrc : Word
  deriving DecidableEq, Repr

/-- The fields of OTGT, register 19 (R45): bits 7:0, bits 15:8 and bit 16; the rest reads 0. -/
structure TargetTag where
  index : Byte
  alt   : Byte
  named : Bool
  deriving DecidableEq, Repr

/-- OTGT, OELEM, OADDR, OOFF, OSIZE: registers 19 to 23 (R45). -/
structure Descriptor where
  tgt  : TargetTag
  elem : Word
  addr : Word
  off  : Word
  size : Word
  deriving DecidableEq, Repr

/-- CUR, TEND, TIDX, NBEL, EIDX, TSUM: registers 24 to 29 (R47). -/
structure WalkRegs where
  cur  : Word
  tend : Word
  tidx : Word
  nbel : Word
  eidx : Word
  tsum : Word
  deriving DecidableEq, Repr

/-- The host's moves (R228): a command word on the command port; RST; a command word whose command RST abandons while it
executes (R220, I16); one byte written into FILE. -/
inductive HostMove where
  | word (w : Word)
  | rst
  | wordAbandoned (w : Word)
  | fileByte (a : Word) (b : Byte)
  deriving DecidableEq, Repr

/-- The whole state. -/
structure State where
  cfg       : Config           -- the parameters (R5); no step changes them
  crc       : CrcRegs          -- registers 0, 1, 3, 4, 5
  status    : Status           -- register 6
  record    : FaultRecord      -- registers 7 to 10
  flen      : Word             -- FLEN, register 11 (R42)
  dfuse     : DfuseRegs        -- registers 12 to 14
  suffix    : SuffixRegs       -- registers 15 to 18
  desc      : Descriptor       -- registers 19 to 23
  walk      : WalkRegs         -- registers 24 to 29
  pend      : Option Word      -- PEND (R50)
  file      : Memory           -- FILE (R61), host memory
  port      : List HostMove    -- the host's moves not yet taken, next one first
  responses : List Word        -- the response words given so far, oldest first
  deriving DecidableEq, Repr

/-- Why the machine stops. One reason: the architecture's own faults are recorded in registers and the block goes on
(R193), so they are next states. -/
inductive Fault where
  /-- Raised by a step that takes the host's move `fileByte` below FLEN while PHASE is active: R77 forbids the host that move
  and the spec models nothing of it (R225, I6). Safe: the machine stops where the chip would go on. -/
  | fileWrittenDuringParse
  deriving DecidableEq, Repr

/-- Why an instruction has no meaning. -/
inductive Refusal where
  /-- For an arm of `exec` without a meaning. No arm raises it: every command is modelled. Safe. -/
  | notModelled (mnemonic : String)
  deriving DecidableEq, Repr

/-- The reset values of R22 and R220 in the configuration `c`. FILE is host memory, which a reset does not give a value: here
nothing is listed (assumption log 7). -/
def State.resetIn (c : Config) : State where
  cfg       := c
  crc       := { acc := Config.init, cnt := 0, base := 0, len := 0, exp := 0 }
  status    := { matched := false, checked := false, crcValid := false, warnCrc := false, kind := false,
                 outValid := false, addrKnown := false, fault := false, peek := false, phase := .idle }
  record    := { code := .none, off := 0, exp := 0, act := 0 }
  flen      := 0
  dfuse     := { tcnt := 0, isize := 0, pver := 0 }
  suffix    := { sdp := 0, svd := 0, slen := 0, scrc := 0 }
  desc      := { tgt := { index := 0, alt := 0, named := false }, elem := 0, addr := 0, off := 0, size := 0 }
  walk      := { cur := 0, tend := 0, tidx := 0, nbel := 0, eidx := 0, tsum := 0 }
  pend      := none
  file      := []
  port      := []
  responses := []

/-- The machine right after reset (R220), with the parameters R5 gives this hardware and nothing from the host yet. -/
def State.reset : State := State.resetIn Config.default

end Sys2Proof.Machine
end

