-- ==== Sys2Proof/Machine/Flags.lean ====
section
/-!
DEFINITION. STATUS and the other computed words: the phase and fault codes (10_state.md R39, 60_exceptions.md R191), the STATUS
word (R29), OTGT (R45), ID (R46), RES (R25), and what each event does to the STATUS flags (R30 to R39, R52).
-/

namespace Sys2Proof.Machine

/-- The value of PHASE (R39). -/
def Phase.num : Phase → BitVec 4
  | .idle => 0 | .suffix => 1 | .sufcrc => 2 | .dfusePrefix => 3 | .plain => 4
  | .target => 5 | .element => 6 | .tclose => 7 | .done => 8 | .failed => 9

/-- The class column of R39: the phases from SUFFIX to TCLOSE are active. -/
def Phase.active : Phase → Bool
  | .suffix | .sufcrc | .dfusePrefix | .plain | .target | .element | .tclose => true
  | .idle | .done | .failed => false

/-- DONE and FAILED (R39, R141). -/
def Phase.terminal : Phase → Bool
  | .done | .failed => true
  | .idle | .suffix | .sufcrc | .dfusePrefix | .plain | .target | .element | .tclose => false

/-- The code column of R191. -/
def FaultCode.num : FaultCode → Byte
  | .none => 0 | .truncatedFile => 1 | .badSignature => 2 | .badTargetSignature => 3 | .malformedPrefix => 4
  | .truncatedTarget => 5 | .checksumMismatch => 6 | .illegalCommand => 7 | .rangeFault => 8 | .sequenceError => 9

/-- One bit of a register word. -/
def bit (b : Bool) : BitVec 1 := BitVec.ofBool b

/-- STATUS as a word (R29): bits 11:9 and 31:16 read 0; when HAS_PARSER = 0 so do bits 2 to 6, 8 and PHASE (R49). -/
def State.statusWord (s : State) : Word :=
  let f := s.status
  let p := s.cfg.hasParser
  let phase : BitVec 4 := if p then f.phase.num else 0
  (0#16) ++ phase ++ (0#3) ++ bit (p && f.peek) ++ bit f.fault ++ bit (p && f.addrKnown) ++ bit (p && f.outValid) ++
    bit (p && f.kind) ++ bit (p && f.warnCrc) ++ bit (p && f.crcValid) ++ bit f.checked ++ bit f.matched

/-- OTGT as a word (R45). -/
def TargetTag.word (t : TargetTag) : Word := (0#15) ++ bit t.named ++ t.alt ++ t.index

/-- RES = ACC ^ XOROUT (R25, 40_crc.md R101). -/
def State.res (s : State) : Word := s.crc.acc ^^^ s.cfg.xorWord

end Sys2Proof.Machine

namespace Sys2Proof

/-- ID, register 30 (R46). -/
def Config.idWord (c : Config) : Word :=
  (0xDF32#16) ++ (0#5) ++ BitVec.ofBool (c.namedBytes == .one) ++ BitVec.ofBool (c.xorOut == .zero) ++
    BitVec.ofBool c.hasParser ++ (0x01#8)

end Sys2Proof

namespace Sys2Proof.Machine

/-- CRC.INIT clears MATCH and CHECKED (R30, R31, 40_crc.md R105). -/
def Status.clearCheck (f : Status) : Status := { f with matched := false, checked := false }

/-- A comparison with result `m` (R30, R31): CRC.CHECK and SUFCRC. -/
def Status.compared (m : Bool) (f : Status) : Status := { f with matched := m, checked := true }

/-- The suffix CRC's verdict (R32, R33): CRC_VALID, and the ChecksumMismatch warning as its inverse (60_exceptions.md
R192). -/
def Status.crcVerdict (m : Bool) (f : Status) : Status := { f with crcValid := m, warnCrc := !m }

/-- What PRS.START does to STATUS (R52, 41_parser.md R132). -/
def Status.parseStart (f : Status) : Status :=
  { f with crcValid := false, warnCrc := false, kind := false, outValid := false, addrKnown := false, phase := .suffix }

end Sys2Proof.Machine
end

