-- ==== Sys2Proof/Machine/Ops.lean ====
section
/-!
DEFINITION. The named operations every command is written from: FILE (20_memory.md R61 to R64), the CRC arithmetic (40_crc.md
R100), exact bounds arithmetic (R66), raising a fault (60_exceptions.md R193) and the returns from one (R199), reset
(70_reset_and_hazards.md R220), the response (30_encoding.md R88), and the frame of a command's execution (R87).
-/

namespace Sys2Proof.Machine

/-! ## FILE -/

/-- What an unlisted address of FILE reads as (assumption log 7). -/
def Memory.unlisted : Byte := 0x00

/-- `FileByte(a)` (R62). -/
def Memory.read : Memory → Nat → Byte
  | [], _ => Memory.unlisted
  | (k, b) :: rest, a => if k = a then b else Memory.read rest a

/-- The host's write of one byte; keeps the canonical form. The block itself has no write (R61). -/
def Memory.write : Memory → Nat → Byte → Memory
  | [], a, b => if b = Memory.unlisted then [] else [(a, b)]
  | (k, c) :: rest, a, b =>
    if a < k then (if b = Memory.unlisted then (k, c) :: rest else (a, b) :: (k, c) :: rest)
    else if a = k then (if b = Memory.unlisted then rest else (a, b) :: rest)
    else (k, c) :: Memory.write rest a b

/-- The canonical form above a bound: addresses rise strictly from `lo`, lie in FILE's 32-bit space (R60), and no entry is
what an unlisted address reads as. -/
def Memory.wfFrom (lo : Nat) : Memory → Bool
  | [] => true
  | (k, b) :: rest => decide (lo ≤ k) && decide (k < 2 ^ 32) && decide (b ≠ Memory.unlisted) && Memory.wfFrom (k + 1) rest

/-- The canonical form of FILE. -/
def Memory.wf (m : Memory) : Bool := Memory.wfFrom 0 m

/-- `FileRead(a, n)`: little-endian and unsigned (R64). -/
def Memory.readLE (m : Memory) (a : Nat) : Nat → Word
  | 0 => 0
  | n + 1 => (m.read a).setWidth 32 + (Memory.readLE m (a + 1) n <<< 8)

/-- The first of the bytes from address `a` on that differs from the given string: its address, what was expected, what is
there (R134, R138). -/
def Memory.mismatch (m : Memory) (a : Nat) : List Byte → Option (Nat × Byte × Byte)
  | [] => none
  | b :: bs => if m.read a = b then Memory.mismatch m (a + 1) bs else some (a, b, m.read a)

/-- ASCII "DfuSe" (20_memory.md R70). -/
def sigDfuse : List Byte := [0x44, 0x66, 0x75, 0x53, 0x65]

/-- ASCII "Target" (R71). -/
def sigTarget : List Byte := [0x54, 0x61, 0x72, 0x67, 0x65, 0x74]

/-- The suffix signature, "UFD" at rising addresses (R69). -/
def sigSuffix : List Byte := [0x55, 0x46, 0x44]

/-- FILE begins with "DfuSe" (R136, R144). -/
def Memory.isDfuse (m : Memory) : Bool := m.mismatch 0 sigDfuse = none

/-! ## The CRC arithmetic -/

/-- One turn of the loop of R100. -/
def crcShift (c : Word) : Word := if c.getLsbD 0 then (c >>> 1) ^^^ Config.poly else c >>> 1

/-- `n` turns of the loop of R100. -/
def crcShifts : Nat → Word → Word
  | 0, c => c
  | n + 1, c => crcShifts n (crcShift c)

/-- `step8(acc, d)` (R100). -/
def step8 (acc : Word) (d : Byte) : Word := crcShifts 8 (acc ^^^ d.setWidth 32)

/-- `fold(step8, acc, b)` (R102). -/
def crcFold (acc : Word) (b : List Byte) : Word := b.foldl step8 acc

/-- ACC after absorbing the `n` FILE bytes from address `a` on, in rising order (20_memory.md R65). -/
def Memory.absorb (m : Memory) (a : Nat) : Nat → Word → Word
  | 0, acc => acc
  | n + 1, acc => Memory.absorb m (a + 1) n (step8 acc (m.read a))

/-! ## Exact arithmetic -/

/-- The 32 bits a register stores of an exact integer (R66; assumption log 11). -/
def narrow (z : Int) : Word := BitVec.ofInt 32 z

/-- `bodyEnd = FLEN - 16` (41_parser.md R131), exact. -/
def State.bodyEnd (s : State) : Int := (s.flen.toNat : Int) - Config.suffixLen

/-! ## Faults, reset, response -/

/-- `raise E(off, exp, act)` (R193): recorded only when no fault is; what ends the command is that nothing follows. -/
def raise (e : FaultCode) (off exp act : Word) (s : State) : State :=
  if s.status.fault then s
  else { s with record := { code := e, off := off, exp := exp, act := act }, status := { s.status with fault := true } }

/-- `phase <- P` (00_scope.md R7). -/
def State.setPhase (p : Phase) (s : State) : State := { s with status := { s.status with phase := p } }

/-- `fail E(off, exp, act)` (41_parser.md, notation): raise, then PHASE becomes FAILED. -/
def fail (e : FaultCode) (off exp act : Word) (s : State) : State := (raise e off exp act s).setPhase .failed

/-- The return from a fault (R173, R199): FAULT and the record are cleared, PHASE is kept. -/
def clearFault (s : State) : State :=
  { s with record := { code := .none, off := 0, exp := 0, act := 0 }, status := { s.status with fault := false } }

/-- Reset (R220): every register to its reset value, PEND empty, FILE kept; configuration, port and past responses are no
block state. -/
def State.hardReset (s : State) : State :=
  { State.resetIn s.cfg with file := s.file, port := s.port, responses := s.responses }

/-- `respond v` (R7, R88). -/
def State.respond (v : Word) (s : State) : State := { s with responses := s.responses ++ [v] }

/-- `respond reg[STATUS]` (R88). -/
def State.respondStatus (s : State) : State := s.respond s.statusWord

/-- The five commands that execute while FAULT = 1 (R195). -/
def runsInFault : Instr → Bool
  | .nop | .rd _ | .prsPeek | .fclr | .srst => true
  | .crcInit | .crcByte _ | .crcWord _ | .crcRange | .crcCheck | .crcLoad _ | .crcResume _
  | .prsStart | .prsStep | .prsNext | .prsRun | .wr _ _ => false

/-- The command breaks R85: IllegalCommand(0, 0, word 0), and STATUS as the response (R87). -/
def illegalCommand (w0 : Word) (s : State) : State := (raise .illegalCommand 0 0 w0 s).respondStatus

/-- `execute` of R87 for the command `i` whose rule is `body` and whose response is `answer` of the state after it: illegal first,
then rejected while a fault is recorded, then performed (R196). -/
def runCommand (i : Instr) (body : State → State) (answer : State → Word) (s : State) :
    Host.Outcome State Fault Refusal :=
  if !i.legal s.cfg then .next (illegalCommand i.word0 s)
  else if s.status.fault && !runsInFault i then .next s.respondStatus
  else .next ((body s).respond (answer (body s)))

end Sys2Proof.Machine
end

