-- ==== Sys2Proof/Machine/Operands.lean ====
section
/-!
DEFINITION. The operand forms: the register space as RD and WR see it (10_state.md R22, 42_control.md R170, R171) and the bytes of the
operand word V (40_crc.md R107).
-/

namespace Sys2Proof.Machine

/-- `reg[r]` as RD sees it (R22, R170): RES, STATUS, OTGT and ID are computed, byte-wide fields read with zeros above
(R40, R43, R44). RD of `r31` or of a register that does not exist raises before this is used (R48, R49). -/
def State.readReg (s : State) : Reg → Word
  | .acc => s.crc.acc
  | .cnt => s.crc.cnt
  | .res => s.res
  | .base => s.crc.base
  | .len => s.crc.len
  | .exp => s.crc.exp
  | .status => s.statusWord
  | .ecode => s.record.code.num.setWidth 32
  | .eoff => s.record.off
  | .eexp => s.record.exp
  | .eact => s.record.act
  | .flen => s.flen
  | .tcnt => s.dfuse.tcnt.setWidth 32
  | .isize => s.dfuse.isize
  | .pver => s.dfuse.pver.setWidth 32
  | .sdp => s.suffix.sdp
  | .svd => s.suffix.svd
  | .slen => s.suffix.slen.setWidth 32
  | .scrc => s.suffix.scrc
  | .otgt => s.desc.tgt.word
  | .oelem => s.desc.elem
  | .oaddr => s.desc.addr
  | .ooff => s.desc.off
  | .osize => s.desc.size
  | .cur => s.walk.cur
  | .tend => s.walk.tend
  | .tidx => s.walk.tidx
  | .nbel => s.walk.nbel
  | .eidx => s.walk.eidx
  | .tsum => s.walk.tsum
  | .id => s.cfg.idWord
  | .r31 => 0

/-- `reg[r] <- V` (R171): all 32 bits of a RW register. WR of any other register raises before this is used. -/
def State.writeReg (r : Reg) (v : Word) (s : State) : State :=
  match r with
  | .acc => { s with crc := { s.crc with acc := v } }
  | .cnt => { s with crc := { s.crc with cnt := v } }
  | .base => { s with crc := { s.crc with base := v } }
  | .len => { s with crc := { s.crc with len := v } }
  | .exp => { s with crc := { s.crc with exp := v } }
  | .flen => { s with flen := v }
  | .res | .status | .ecode | .eoff | .eexp | .eact | .tcnt | .isize | .pver | .sdp | .svd | .slen | .scrc
  | .otgt | .oelem | .oaddr | .ooff | .osize | .cur | .tend | .tidx | .nbel | .eidx | .tsum | .id | .r31 => s

/-- The four bytes of V, least significant first (R107, 20_memory.md R65). -/
def wordBytes (v : Word) : List Byte :=
  [v.extractLsb' 0 8, v.extractLsb' 8 8, v.extractLsb' 16 8, v.extractLsb' 24 8]

end Sys2Proof.Machine
end

