-- ==== Sys2Proof/Machine/Control.lean ====
section
/-!
DEFINITION. Register access and control: RD, WR, FCLR, SRST (42_control.md R170 to R174).
-/

namespace Sys2Proof.Machine

/-- RD reg (R170): changes nothing and responds the value. -/
def execRd (r : Reg) (s : State) : Host.Outcome State Fault Refusal :=
  runCommand (.rd r) (fun t => t) (fun t => t.readReg r) s

/-- The pseudocode of WR (R171, R172): FLEN is refused while PHASE is active. -/
def wrRule (r : Reg) (v : Word) (s : State) : State :=
  if r = .flen ∧ s.status.phase.active then raise .sequenceError 0 0 (Instr.word0 (.wr r v)) s else s.writeReg r v

/-- WR reg, imm32 (R171). -/
def execWr (r : Reg) (v : Word) (s : State) : Host.Outcome State Fault Refusal :=
  runCommand (.wr r v) (wrRule r v) State.statusWord s

/-- FCLR (R173). -/
def execFclr (s : State) : Host.Outcome State Fault Refusal :=
  runCommand .fclr clearFault State.statusWord s

/-- SRST (R174): the reset of 70_reset_and_hazards.md R220, then the response. -/
def execSrst (s : State) : Host.Outcome State Fault Refusal :=
  runCommand .srst State.hardReset State.statusWord s

end Sys2Proof.Machine
end

