-- ==== Sys2Proof/Machine/Crc.lean ====
section
/-!
DEFINITION. The CRC family: NOP and the CRC.* commands (40_crc.md R104 to R111). Each meaning is `runCommand` (illegal, rejected,
performed, response) around the rule's own pseudocode.
-/

namespace Sys2Proof.Machine

/-- NOP (R104). -/
def execNop (s : State) : Host.Outcome State Fault Refusal :=
  runCommand .nop (fun t => t) State.statusWord s

/-- ACC absorbs the bytes of a string, in order, and CNT counts them modulo 2^32 (R106, R107, R24). -/
def absorbBytes (b : List Byte) (s : State) : State :=
  { s with crc := { s.crc with acc := crcFold s.crc.acc b, cnt := s.crc.cnt + BitVec.ofNat 32 b.length } }

/-- The pseudocode of CRC.INIT (R105). -/
def crcInitRule (s : State) : State :=
  { s with crc := { s.crc with acc := Config.init, cnt := 0 }, status := s.status.clearCheck }

/-- CRC.INIT (R105). -/
def execCrcInit (s : State) : Host.Outcome State Fault Refusal :=
  runCommand .crcInit crcInitRule State.statusWord s

/-- CRC.BYTE imm8 (R106). -/
def execCrcByte (d : Byte) (s : State) : Host.Outcome State Fault Refusal :=
  runCommand (.crcByte d) (absorbBytes [d]) State.statusWord s

/-- CRC.WORD imm32 (R107). -/
def execCrcWord (v : Word) (s : State) : Host.Outcome State Fault Refusal :=
  runCommand (.crcWord v) (absorbBytes (wordBytes v)) State.statusWord s

/-- The pseudocode of CRC.RANGE (R108): the bound is checked before any byte is read, in exact arithmetic (R66). -/
def crcRangeRule (s : State) : State :=
  if s.crc.base.toNat + s.crc.len.toNat > s.flen.toNat then raise .rangeFault s.crc.base s.crc.len s.flen s
  else { s with crc := { s.crc with acc := s.file.absorb s.crc.base.toNat s.crc.len.toNat s.crc.acc,
                                    cnt := s.crc.cnt + s.crc.len } }

/-- CRC.RANGE (R108). -/
def execCrcRange (s : State) : Host.Outcome State Fault Refusal :=
  runCommand .crcRange crcRangeRule State.statusWord s

/-- The pseudocode of CRC.CHECK (R109). -/
def crcCheckRule (s : State) : State := { s with status := s.status.compared (s.res == s.crc.exp) }

/-- CRC.CHECK (R109). -/
def execCrcCheck (s : State) : Host.Outcome State Fault Refusal :=
  runCommand .crcCheck crcCheckRule State.statusWord s

/-- The pseudocode of CRC.LOAD (R110). -/
def crcLoadRule (v : Word) (s : State) : State := { s with crc := { s.crc with acc := v } }

/-- CRC.LOAD imm32 (R110). -/
def execCrcLoad (v : Word) (s : State) : Host.Outcome State Fault Refusal :=
  runCommand (.crcLoad v) (crcLoadRule v) State.statusWord s

/-- CRC.RESUME imm32 (R111): ACC <- V ^ XOROUT. -/
def execCrcResume (v : Word) (s : State) : Host.Outcome State Fault Refusal :=
  runCommand (.crcResume v) (fun t => crcLoadRule (v ^^^ t.cfg.xorWord) t) State.statusWord s

end Sys2Proof.Machine
end

