-- ==== Sys2Proof/Machine/Parser.lean ====
section
/-!
DEFINITION. The record-parser family (41_parser.md): the FSM's transitions (R134 to R141), one transition (R133), the loops of
PRS.NEXT and PRS.RUN (R142, R143), and the five PRS.* commands. Sums and differences of offsets are exact integers (20_memory.md
R66) and are narrowed where a register stores them.
-/

namespace Sys2Proof.Machine

/-- Two 16-bit fields as one register, the second one in the low half (10_state.md R44). -/
def halves (hi lo : Word) : Word := hi.extractLsb' 0 16 ++ lo.extractLsb' 0 16

/-- The suffix fields latched from the 16 bytes at `p` (20_memory.md R69, R134). -/
def suffixAt (m : Memory) (p : Nat) : SuffixRegs where
  sdp  := halves (m.readLE (p + 2) 2) (m.readLE (p + 0) 2)
  svd  := halves (m.readLE (p + 6) 2) (m.readLE (p + 4) 2)
  slen := m.read (p + 11)
  scrc := m.readLE (p + 12) 4

/-- SUFFIX (R134): the fields are latched before the signature is checked. -/
def transSuffix (s : State) : State :=
  if s.flen.toNat < Config.suffixLen then fail .truncatedFile 0 16 s.flen s
  else
    let p := s.flen.toNat - Config.suffixLen
    let t := { s with suffix := suffixAt s.file p }
    match s.file.mismatch (p + 8) sigSuffix with
    | some (a, want, got) => fail .badSignature (narrow a) (want.setWidth 32) (got.setWidth 32) t
    | none => t.setPhase .sufcrc

/-- SUFCRC (R135): the CRC of FILE[0, FLEN - 4), compared with the stored dwCRC; a mismatch is a warning. -/
def transSufcrc (s : State) : State :=
  let acc := s.file.absorb 0 (s.flen.toNat - 4) Config.init
  let m := (acc ^^^ s.cfg.xorWord) == s.suffix.scrc
  { s with
    crc := { s.crc with acc := acc, cnt := narrow ((s.flen.toNat : Int) - 4), exp := s.suffix.scrc }
    status := { (s.status.compared m).crcVerdict m with phase := .dfusePrefix } }

/-- PREFIX (R136): KIND is written before the checks, PVER, ISIZE and TCNT before the last two. -/
def transPrefix (s : State) : State :=
  if s.file.isDfuse then
    let t := { s with status := { s.status with kind := true } }
    if (Config.dfusePrefixLen : Int) > s.bodyEnd then fail .truncatedFile 0 11 (narrow s.bodyEnd) t
    else
      let isize := s.file.readLE 6 4
      let tcnt := s.file.read 10
      let u := { t with dfuse := { tcnt := tcnt, isize := isize, pver := s.file.read 5 } }
      if (isize.toNat : Int) > s.bodyEnd then fail .malformedPrefix 6 (narrow s.bodyEnd) isize u
      else if tcnt = 0 then fail .malformedPrefix 10 1 0 u
      else { u with walk := { u.walk with cur := 11, tidx := 0, tsum := 0 } }.setPhase .target
  else { s with status := { s.status with kind := false, phase := .plain } }

/-- PLAIN (R137): one descriptor for the whole payload, its address unknown. -/
def transPlain (s : State) : State :=
  { s with
    desc := { tgt := { index := 0, alt := 0, named := false }, elem := 0, addr := 0, off := 0, size := narrow s.bodyEnd }
    walk := { s.walk with cur := narrow s.bodyEnd }
    status := { s.status with addrKnown := false, outValid := true, phase := .done } }

/-- The fields of a target header that are read (20_memory.md R71); the name bytes are not. -/
structure TargetHdr where
  alt   : Byte   -- bAlternateSetting
  named : Word   -- bTargetNamed
  tsize : Word   -- dwTargetSize
  nbel  : Word   -- dwNbElements
  deriving DecidableEq, Repr

/-- The header at `p`, bTargetNamed being `nb` bytes wide (R71). -/
def targetHdrAt (m : Memory) (nb p : Nat) : TargetHdr where
  alt   := m.read (p + 6)
  named := m.readLE (p + 7) nb
  tsize := m.readLE (p + 262 + nb) 4
  nbel  := m.readLE (p + 266 + nb) 4

/-- What TARGET writes before the span check: OTGT, NBEL, EIDX, TSUM (R138). -/
def targetLatch (h : TargetHdr) (s : State) : State :=
  { s with
    desc := { s.desc with tgt := { index := s.walk.tidx.extractLsb' 0 8, alt := h.alt, named := h.named != 0 } }
    walk := { s.walk with nbel := h.nbel, eidx := 0, tsum := s.walk.tsum + h.tsize } }

/-- The walk enters the span of `tsize` bytes at `b`, or closes the target at once if it has no elements (R138). -/
def targetEnter (b : Nat) (h : TargetHdr) (s : State) : State :=
  { s with walk := { s.walk with cur := narrow b, tend := narrow (b + h.tsize.toNat) } }.setPhase
    (if h.nbel = 0 then .tclose else .element)

/-- TARGET once the signature is right: the header's span starts at `b` (R138). -/
def targetSpan (b : Nat) (h : TargetHdr) (s : State) : State :=
  if ((b + h.tsize.toNat : Nat) : Int) > s.bodyEnd then
    fail .truncatedFile (narrow b) h.tsize (narrow (s.bodyEnd - b)) (targetLatch h s)
  else targetEnter b h (targetLatch h s)

/-- TARGET (R138). -/
def transTarget (s : State) : State :=
  let p := s.walk.cur.toNat
  let th := s.cfg.targetHdrLen
  if ((p + th : Nat) : Int) > s.bodyEnd then
    fail .truncatedFile (narrow p) (narrow th) (narrow (s.bodyEnd - p)) s
  else
    match s.file.mismatch p sigTarget with
    | some (a, want, got) => fail .badTargetSignature (narrow a) (want.setWidth 32) (got.setWidth 32) s
    | none => targetSpan (p + th) (targetHdrAt s.file s.cfg.nb p) s

/-- ELEMENT (R139): one descriptor, or TruncatedTarget with nothing else written. -/
def transElement (s : State) : State :=
  let p := s.walk.cur.toNat
  let tend := s.walk.tend.toNat
  if p + 8 > tend then fail .truncatedTarget (narrow p) 8 (narrow ((tend : Int) - p)) s
  else
    let addr := s.file.readLE p 4
    let size := s.file.readLE (p + 4) 4
    if p + 8 + size.toNat > tend then
      fail .truncatedTarget (narrow (p + 8)) size (narrow ((tend : Int) - (p + 8))) s
    else
      { s with
        desc := { s.desc with elem := s.walk.eidx, addr := addr, off := narrow (p + 8), size := size }
        walk := { s.walk with cur := narrow (p + 8 + size.toNat), eidx := s.walk.eidx + 1 }
        status := { s.status with
          addrKnown := true, outValid := true,
          phase := if s.walk.eidx + 1 = s.walk.nbel then .tclose else .element } }

/-- TCLOSE (R140): the span must be consumed exactly. -/
def transTclose (s : State) : State :=
  if s.walk.cur ≠ s.walk.tend then fail .truncatedTarget s.walk.cur s.walk.tend s.walk.cur s
  else
    { s with walk := { s.walk with tidx := s.walk.tidx + 1 } }.setPhase
      (if s.walk.tidx + 1 = s.dfuse.tcnt.setWidth 32 then .done else .target)

/-- One transition, PRS.STEP after its IDLE check (R133): OUT_VALID is cleared, then the phase's rule acts. In IDLE no rule
uses it (assumption log 17). -/
def transition (s : State) : State :=
  let t := { s with status := { s.status with outValid := false } }
  match s.status.phase with
  | .suffix => transSuffix t
  | .sufcrc => transSufcrc t
  | .dfusePrefix => transPrefix t
  | .plain => transPlain t
  | .target => transTarget t
  | .element => transElement t
  | .tclose => transTclose t
  | .idle | .done | .failed => t

/-- `repeat transition until stop` (R142, R143), at most `n` transitions. -/
def transitionsUntil (stop : State → Bool) : Nat → State → State
  | 0, s => s
  | n + 1, s => if stop (transition s) then transition s else transitionsUntil stop n (transition s)

/-- More transitions than any parse makes from any state: every TARGET and ELEMENT raises CUR, which stays below 2^32, and
no two TCLOSE follow each other (R145, R66; assumption log 15). -/
def transitionLimit : Nat := 2 ^ 33

/-- The `until` of PRS.NEXT (R142). -/
def nextStop (s : State) : Bool := s.status.outValid || s.status.phase.terminal

/-- The `until` of PRS.RUN (R143). -/
def runStop (s : State) : Bool := s.status.phase.terminal

/-- The IDLE check of PRS.STEP, PRS.NEXT and PRS.RUN (R133, R142, R143), then `body`. -/
def inParse (i : Instr) (body : State → State) (s : State) : State :=
  if s.status.phase = .idle then raise .sequenceError 0 0 i.word0 s else body s

/-- The pseudocode of PRS.START (R132). -/
def prsStartRule (s : State) : State :=
  { s with
    status := s.status.parseStart
    dfuse := { tcnt := 0, isize := 0, pver := 0 }
    suffix := { sdp := 0, svd := 0, slen := 0, scrc := 0 }
    desc := { tgt := { index := 0, alt := 0, named := false }, elem := 0, addr := 0, off := 0, size := 0 }
    walk := { cur := 0, tend := 0, tidx := 0, nbel := 0, eidx := 0, tsum := 0 } }

/-- PRS.START (R132). -/
def execPrsStart (s : State) : Host.Outcome State Fault Refusal :=
  runCommand .prsStart prsStartRule State.statusWord s

/-- PRS.STEP (R133). -/
def execPrsStep (s : State) : Host.Outcome State Fault Refusal :=
  runCommand .prsStep (inParse .prsStep transition) State.statusWord s

/-- PRS.NEXT (R142). -/
def execPrsNext (s : State) : Host.Outcome State Fault Refusal :=
  runCommand .prsNext (inParse .prsNext (transitionsUntil nextStop transitionLimit)) State.statusWord s

/-- PRS.RUN (R143). -/
def execPrsRun (s : State) : Host.Outcome State Fault Refusal :=
  runCommand .prsRun (inParse .prsRun (transitionsUntil runStop transitionLimit)) State.statusWord s

/-- The pseudocode of PRS.PEEK (R144): fewer than five bytes are not compared. -/
def prsPeekRule (s : State) : State :=
  { s with status := { s.status with peek := decide (5 ≤ s.flen.toNat) && s.file.isDfuse } }

/-- PRS.PEEK (R144). -/
def execPrsPeek (s : State) : Host.Outcome State Fault Refusal :=
  runCommand .prsPeek prsPeekRule State.statusWord s

end Sys2Proof.Machine
end

