-- ==== Sys2Proof/Machine/Dispatch.lean ====
section
/-! DEFINITION. One arm per command of 30_encoding.md R84: the call of its meaning. -/

namespace Sys2Proof.Machine

def exec (i : Instr) (s : State) : Host.Outcome State Fault Refusal :=
  match i with
  | .nop => Sys2Proof.Machine.execNop s
  | .crcInit => Sys2Proof.Machine.execCrcInit s
  | .crcByte d => Sys2Proof.Machine.execCrcByte d s
  | .crcWord v => Sys2Proof.Machine.execCrcWord v s
  | .crcRange => Sys2Proof.Machine.execCrcRange s
  | .crcCheck => Sys2Proof.Machine.execCrcCheck s
  | .crcLoad v => Sys2Proof.Machine.execCrcLoad v s
  | .crcResume v => Sys2Proof.Machine.execCrcResume v s
  | .prsStart => Sys2Proof.Machine.execPrsStart s
  | .prsStep => Sys2Proof.Machine.execPrsStep s
  | .prsNext => Sys2Proof.Machine.execPrsNext s
  | .prsRun => Sys2Proof.Machine.execPrsRun s
  | .prsPeek => Sys2Proof.Machine.execPrsPeek s
  | .rd r => Sys2Proof.Machine.execRd r s
  | .wr r v => Sys2Proof.Machine.execWr r v s
  | .fclr => Sys2Proof.Machine.execFclr s
  | .srst => Sys2Proof.Machine.execSrst s

end Sys2Proof.Machine
end

