-- ==== Sys2Proof/Machine/Port.lean ====
section
/-!
DEFINITION. The command port: what the next of the host's moves (70_reset_and_hazards.md R228) does, and which command it makes the
block execute (30_encoding.md R82, R87).
-/

namespace Sys2Proof.Machine

/-- What taking a move leads to: a command to execute, or an outcome already settled. -/
inductive Fetched where
  | run (i : Instr) (s : State)
  | settled (o : Host.Outcome State Fault Refusal)
  deriving Repr

/-- `execute(w0, v)` of R87 up to the choice of the rule: a word of no command's shape raises IllegalCommand (R85 (a),
(b)); the rest of legality is the command's own. -/
def execute (w0 v : Word) (s : State) : Fetched :=
  match decodeWords w0 v with
  | .ok i => .run i s
  | .error _ => .settled (.next (illegalCommand w0 s))

/-- `on_word(w)` of R87. The first word of a two-word command waits in PEND; the word after it is its operand, whatever it
looks like (R82, R226). -/
def onWord (w : Word) (s : State) : Fetched :=
  match s.pend with
  | some w0 => execute w0 w { s with pend := none }
  | none => if isTwoWord w then .settled (.next { s with pend := some w }) else execute w 0 s

/-- The host writes a byte of FILE, its own memory. While PHASE is active it must keep FILE[0, FLEN) (R77, R225, R228); a byte
at or above FLEN the block never reads (R62). -/
def hostWrite (a : Word) (b : Byte) (s : State) : Host.Outcome State Fault Refusal :=
  if s.status.phase.active && decide (a.toNat < s.flen.toNat) then .fault .fileWrittenDuringParse
  else .next { s with file := s.file.write a.toNat b }

/-- Takes the host's next move. With none the block waits (R221, R231): the state stays as it is. -/
def takeMove (s : State) : Fetched :=
  match s.port with
  | [] => .settled (.next s)
  | .word w :: rest => onWord w { s with port := rest }
  | .rst :: rest => .settled (.next { s with port := rest }.hardReset)
  | .wordAbandoned _ :: rest => .settled (.next { s with port := rest }.hardReset)
  | .fileByte a b :: rest => .settled (hostWrite a b { s with port := rest })

/-- The state in which the words `w0`, then `v` if `w0` begins a two-word command, are the next thing delivered: such a
`w0` has been taken already and waits in PEND (R87). -/
def State.deliver (w0 v : Word) (s : State) : State :=
  if isTwoWord w0 then { s with pend := some w0, port := .word v :: s.port }
  else { s with pend := none, port := .word w0 :: s.port }

end Sys2Proof.Machine
end

