-- ==== Sys2Proof/Machine/Step.lean ====
section
/-! DEFINITION. One step: the host's next move is taken, and the command it completes, if any, is executed (30_encoding.md R87). -/

namespace Sys2Proof.Machine

def step (s : State) : Host.Outcome State Fault Refusal :=
  match takeMove s with
  | .run i t => exec i t
  | .settled o => o

/-- `s` with the command whose bits are `w` delivered next, bits at and above `nbits` being 0 (assumption log 4). -/
def State.withFetchWord (s : State) (nbits w : Nat) : State :=
  s.deliver (BitVec.ofNat 32 (w % 2 ^ nbits)) (BitVec.ofNat 32 (w % 2 ^ nbits / 2 ^ 32))

end Sys2Proof.Machine
end

