-- ==== Sys2Proof/Machine/Assembler.lean ====
section
/-!
DEFINITION. The assembler's language: the syntax of 30_encoding.md R89 and the pseudo-instructions of R90. No command's meaning
rests on it. What R89 leaves to the reader (blanks, empty lines, the case of hexadecimal digits) is assumption log 20.
-/

namespace Sys2Proof.Machine

/-! ## Pseudo-instructions -/

/-- The pseudo-instructions of R90. -/
inductive Pseudo where
  | compute (base len : Word)
  | verify (base len expected : Word)
  | bytes (bs : List Byte)
  | string (text : List Byte)
  | validate (flen : Word)
  | rdDesc
  deriving DecidableEq, Repr

/-- The expansion column of R90. -/
def Pseudo.expand : Pseudo → List Instr
  | .compute base len => [.wr .base base, .wr .len len, .crcInit, .crcRange, .rd .res]
  | .verify base len expected => [.wr .base base, .wr .len len, .wr .exp expected, .crcInit, .crcRange, .crcCheck]
  | .bytes bs => bs.map .crcByte
  | .string text => text.map .crcByte
  | .validate flen => [.wr .flen flen, .prsStart, .prsRun]
  | .rdDesc => [.rd .otgt, .rd .oelem, .rd .oaddr, .rd .ooff, .rd .osize]

/-! ## Lines to tokens -/

/-- Why a line does not assemble. -/
inductive AsmError where
  | badQuote          -- a character literal or a string that does not close
  | unknownMnemonic
  | wrongOperands     -- not the operands the mnemonic's form has
  | badRegister
  | badNumber
  | outOfRange        -- IMM8 above 255, or a 32-bit operand above 0xFFFFFFFF (R89)
  deriving DecidableEq, Repr

/-- The tokens of a line: a name or number, a comma, a character literal, a string. -/
inductive Token where
  | word (cs : List Char)
  | comma
  | chr (c : Char)
  | str (cs : List Char)
  deriving DecidableEq, Repr

/-- Where in a token the reader of a line stands; what it has read of it, last character first. -/
inductive LexAt where
  | gap
  | word (rev : List Char)
  | chr (c : Option Char)
  | str (rev : List Char)

/-- The character that opens and closes a character literal (R89). -/
def apostrophe : Char := Char.ofNat 39

/-- The character that opens and closes a string (R90). -/
def quoteMark : Char := Char.ofNat 34

/-- Blanks between tokens. -/
def isBlank (c : Char) : Bool := c == ' ' || c == '\t' || c == '\r'

/-- The tokens of the rest of a line; `;` starts a comment (R89). -/
def lex : LexAt → List Char → Except AsmError (List Token)
  | .gap, [] => .ok []
  | .word r, [] => .ok [.word r.reverse]
  | .chr _, [] => .error .badQuote
  | .str _, [] => .error .badQuote
  | .gap, c :: cs =>
    if c = ';' then .ok []
    else if c = ',' then (lex .gap cs).map (.comma :: ·)
    else if isBlank c then lex .gap cs
    else if c = apostrophe then lex (.chr none) cs
    else if c = quoteMark then lex (.str []) cs
    else lex (.word [c]) cs
  | .word r, c :: cs =>
    if c = ';' then .ok [.word r.reverse]
    else if c = ',' then (lex .gap cs).map (fun ts => .word r.reverse :: .comma :: ts)
    else if isBlank c then (lex .gap cs).map (.word r.reverse :: ·)
    else lex (.word (c :: r)) cs
  | .chr none, c :: cs => lex (.chr (some c)) cs
  | .chr (some d), c :: cs => if c = apostrophe then (lex .gap cs).map (.chr d :: ·) else .error .badQuote
  | .str r, c :: cs => if c = quoteMark then (lex .gap cs).map (.str r.reverse :: ·) else lex (.str (c :: r)) cs

/-- Operands separated by commas (R89). -/
def operands : List Token → Except AsmError (List Token)
  | [] => .ok []
  | [.comma] => .error .wrongOperands
  | [t] => .ok [t]
  | t :: .comma :: u :: rest => (operands (u :: rest)).map (t :: ·)
  | _ => .error .wrongOperands

/-! ## Operands -/

/-- The value of a digit in base 10 or 16. -/
def digit (base : Nat) (c : Char) : Option Nat :=
  let n := c.toNat
  if 48 ≤ n ∧ n ≤ 57 then some (n - 48)
  else if base = 16 ∧ 97 ≤ n ∧ n ≤ 102 then some (n - 87)
  else if base = 16 ∧ 65 ≤ n ∧ n ≤ 70 then some (n - 55)
  else none

/-- The value of a string of digits read after the value `v`. -/
def digits (base : Nat) : List Char → Nat → Option Nat
  | [], v => some v
  | c :: cs, v => (digit base c).bind (fun d => digits base cs (v * base + d))

/-- An immediate: decimal, or hexadecimal after 0x (R89). DESIGN CHOICE, safe: leading zeros are allowed (assumption log 20). -/
def number (cs : List Char) : Option Nat :=
  if cs.take 2 = "0x".toList then (if cs.drop 2 = [] then none else digits 16 (cs.drop 2) 0)
  else if cs = [] then none
  else digits 10 cs 0

/-- A 32-bit operand (R89). -/
def imm32 : Token → Except AsmError Word
  | .word cs =>
    match number cs with
    | none => .error .badNumber
    | some n => if n < 2 ^ 32 then .ok (BitVec.ofNat 32 n) else .error .outOfRange
  | .comma | .chr _ | .str _ => .error .wrongOperands

/-- The ASCII code of a character. -/
def ascii (c : Char) : Except AsmError Byte :=
  if c.toNat < 128 then .ok (BitVec.ofNat 8 c.toNat) else .error .outOfRange

/-- An IMM8 operand: a number, or a character literal (R89). -/
def imm8 : Token → Except AsmError Byte
  | .word cs =>
    match number cs with
    | none => .error .badNumber
    | some n => if n < 2 ^ 8 then .ok (BitVec.ofNat 8 n) else .error .outOfRange
  | .chr c => ascii c
  | .comma | .str _ => .error .wrongOperands

/-- The register names of 10_state.md R22; number 31 has only the name r31. -/
def regName : Reg → String
  | .acc => "ACC" | .cnt => "CNT" | .res => "RES" | .base => "BASE"
  | .len => "LEN" | .exp => "EXP" | .status => "STATUS" | .ecode => "ECODE"
  | .eoff => "EOFF" | .eexp => "EEXP" | .eact => "EACT" | .flen => "FLEN"
  | .tcnt => "TCNT" | .isize => "ISIZE" | .pver => "PVER" | .sdp => "SDP"
  | .svd => "SVD" | .slen => "SLEN" | .scrc => "SCRC" | .otgt => "OTGT"
  | .oelem => "OELEM" | .oaddr => "OADDR" | .ooff => "OOFF" | .osize => "OSIZE"
  | .cur => "CUR" | .tend => "TEND" | .tidx => "TIDX" | .nbel => "NBEL"
  | .eidx => "EIDX" | .tsum => "TSUM" | .id => "ID"
  | .r31 => "r31"

/-- A register operand: a name of R22, or r0 to r31 (R89). DESIGN CHOICE, safe: leading zeros in the number are allowed, so r007 is r7
(assumption log 20). -/
def register : Token → Except AsmError Reg
  | .word cs =>
    match Reg.all.find? (fun r => (regName r).toList == cs) with
    | some r => .ok r
    | none =>
      if cs.take 1 = "r".toList ∧ cs.drop 1 ≠ [] then
        match digits 10 (cs.drop 1) 0 with
        | some n => if n < 32 then .ok (Reg.ofNum (BitVec.ofNat 5 n)) else .error .badRegister
        | none => .error .badRegister
      else .error .badRegister
  | .comma | .chr _ | .str _ => .error .badRegister

/-- A list of results, or the first error. -/
def allOk {α : Type} (f : Token → Except AsmError α) : List Token → Except AsmError (List α)
  | [] => .ok []
  | t :: ts => (f t).bind (fun a => (allOk f ts).map (a :: ·))

/-- The bytes of a string's characters. -/
def asciiAll : List Char → Except AsmError (List Byte)
  | [] => .ok []
  | c :: cs => (ascii c).bind (fun b => (asciiAll cs).map (b :: ·))

/-! ## Lines -/

/-- The mnemonics of R84. -/
def mnemonic : Op → String
  | .nop => "NOP" | .crcInit => "CRC.INIT" | .crcByte => "CRC.BYTE" | .crcWord => "CRC.WORD"
  | .crcRange => "CRC.RANGE" | .crcCheck => "CRC.CHECK" | .crcLoad => "CRC.LOAD" | .crcResume => "CRC.RESUME"
  | .prsStart => "PRS.START" | .prsStep => "PRS.STEP" | .prsNext => "PRS.NEXT" | .prsRun => "PRS.RUN"
  | .prsPeek => "PRS.PEEK" | .rd => "RD" | .wr => "WR" | .fclr => "FCLR" | .srst => "SRST"

/-- A command and its operands, in the form R89 gives its mnemonic. -/
def command (o : Op) (args : List Token) : Except AsmError Instr :=
  match o, args with
  | .crcByte, [a] => (imm8 a).map .crcByte
  | .crcWord, [a] => (imm32 a).map .crcWord
  | .crcLoad, [a] => (imm32 a).map .crcLoad
  | .crcResume, [a] => (imm32 a).map .crcResume
  | .rd, [r] => (register r).map .rd
  | .wr, [r, a] => (register r).bind (fun r => (imm32 a).map (.wr r))
  | .nop, [] => .ok .nop
  | .crcInit, [] => .ok .crcInit
  | .crcRange, [] => .ok .crcRange
  | .crcCheck, [] => .ok .crcCheck
  | .prsStart, [] => .ok .prsStart
  | .prsStep, [] => .ok .prsStep
  | .prsNext, [] => .ok .prsNext
  | .prsRun, [] => .ok .prsRun
  | .prsPeek, [] => .ok .prsPeek
  | .fclr, [] => .ok .fclr
  | .srst, [] => .ok .srst
  | _, _ => .error .wrongOperands

/-- A pseudo-instruction and its operands (R90); `none` where the name is no pseudo-instruction's. -/
def pseudo (name : List Char) (args : List Token) : Option (Except AsmError Pseudo) :=
  if name = "CRC.COMPUTE".toList then some <|
    match args with
    | [b, l] => (imm32 b).bind (fun b => (imm32 l).map (.compute b))
    | _ => .error .wrongOperands
  else if name = "CRC.VERIFY".toList then some <|
    match args with
    | [b, l, e] => (imm32 b).bind (fun b => (imm32 l).bind (fun l => (imm32 e).map (.verify b l)))
    | _ => .error .wrongOperands
  else if name = "CRC.BYTES".toList then some <|
    match args with
    | [] => .error .wrongOperands
    | a :: as => (allOk imm8 (a :: as)).map .bytes
  else if name = "CRC.STRING".toList then some <|
    match args with
    | [.str cs] => (asciiAll cs).map .string
    | _ => .error .wrongOperands
  else if name = "PRS.VALIDATE".toList then some <|
    match args with
    | [f] => (imm32 f).map .validate
    | _ => .error .wrongOperands
  else if name = "RD.DESC".toList then some <|
    match args with
    | [] => .ok .rdDesc
    | _ => .error .wrongOperands
  else none

/-- The commands of one line: none for a line without a mnemonic, several for a pseudo-instruction (R89, R90). -/
def assembleLine (line : String) : Except AsmError (List Instr) :=
  (lex .gap line.toList).bind fun ts =>
    match ts with
    | [] => .ok []
    | .word name :: rest =>
      (operands rest).bind fun args =>
        match opTable.find? (fun r => (mnemonic r.op).toList == name) with
        | some r => (command r.op args).map (fun i => [i])
        | none =>
          match pseudo name args with
          | some p => p.map Pseudo.expand
          | none => .error .unknownMnemonic
    | _ => .error .unknownMnemonic

/-- The words of a program, a line each (R89: word 0, then word 1 for W and RW). -/
def assemble : List String → Except AsmError (List Word)
  | [] => .ok []
  | l :: ls => (assembleLine l).bind (fun is => (assemble ls).map (is.flatMap encode ++ ·))

end Sys2Proof.Machine
end

