-- ==== Sys2Proof/Safety.lean ====
section
/-!
DEFINITION. What claims are stated in: the invariant of the state (`State.Inv`, from 10_state.md, 41_parser.md R146 and the layout
rules), the host's duty a safe run rests on (20_memory.md R77), and what is observed of a run (70_reset_and_hazards.md R231).
-/

namespace Sys2Proof.Machine

/-! ## The invariant -/

/-- FILE is in canonical form. -/
abbrev State.FileInv (s : State) : Prop := s.file.wf = true

/-- PEND holds only the first word of a two-word command (R50, R82). -/
abbrev State.PendInv (s : State) : Prop := s.pend.all isTwoWord = true

/-- The fault record is 0 exactly while FAULT = 0, and never says ChecksumMismatch (R40, R41, R191, R193). -/
abbrev State.RecordInv (s : State) : Prop :=
  (s.status.fault = false → s.record = (State.resetIn s.cfg).record) ∧
  (s.status.fault = true → s.record.code ≠ .none ∧ s.record.code ≠ .checksumMismatch)

/-- The CRC flags: MATCH only with CHECKED (R31); CRC_VALID and WARN_CRC are 0 until SUFCRC, opposite after it, and never
both 1 (R32, R33). -/
abbrev State.CrcFlagInv (s : State) : Prop :=
  (s.status.matched = true → s.status.checked = true) ∧
  (s.status.phase ∈ [Phase.idle, .suffix, .sufcrc] → s.status.crcValid = false ∧ s.status.warnCrc = false) ∧
  (s.status.phase ∈ [Phase.dfusePrefix, .plain, .target, .element, .tclose, .done] →
    s.status.warnCrc = !s.status.crcValid) ∧
  ¬ (s.status.crcValid = true ∧ s.status.warnCrc = true)

/-- KIND is 0 until PREFIX decides it, then says which path the parse takes (R34); OUT_VALID can be 1 only where PLAIN or
ELEMENT has just led (R35). -/
abbrev State.KindInv (s : State) : Prop :=
  (s.status.phase ∈ [Phase.idle, .suffix, .sufcrc, .dfusePrefix, .plain] → s.status.kind = false) ∧
  (s.status.phase ∈ [Phase.target, .element, .tclose] → s.status.kind = true) ∧
  (s.status.outValid = true → s.status.phase ∈ [Phase.element, .tclose, .done])

/-- Without the parser nothing of it is ever written (R49). -/
abbrev State.NoParserInv (s : State) : Prop :=
  s.cfg.hasParser = false →
    s.status.crcValid = false ∧ s.status.warnCrc = false ∧ s.status.kind = false ∧ s.status.outValid = false ∧
    s.status.addrKnown = false ∧ s.status.peek = false ∧ s.status.phase = .idle ∧
    s.dfuse = (State.resetIn s.cfg).dfuse ∧ s.suffix = (State.resetIn s.cfg).suffix ∧
    s.desc = (State.resetIn s.cfg).desc ∧ s.walk = (State.resetIn s.cfg).walk

/-- After SUFFIX the file holds a suffix while the parse is active (R131, R172). -/
abbrev State.BodyInv (s : State) : Prop :=
  s.status.phase ∈ [Phase.sufcrc, .dfusePrefix, .plain, .target, .element, .tclose] → 16 ≤ s.flen.toNat

/-- The walk's bounds (R146): CUR in the body, TIDX below TCNT, and inside a target CUR up to TEND in the body and EIDX up
to NBEL. -/
abbrev State.WalkInv (s : State) : Prop :=
  (s.status.phase ∈ [Phase.target, .element, .tclose] →
    11 ≤ s.walk.cur.toNat ∧ s.walk.cur.toNat + 16 ≤ s.flen.toNat ∧
    1 ≤ s.dfuse.tcnt.toNat ∧ s.walk.tidx.toNat < s.dfuse.tcnt.toNat) ∧
  (s.status.phase ∈ [Phase.element, .tclose] →
    s.walk.cur.toNat ≤ s.walk.tend.toNat ∧ s.walk.tend.toNat + 16 ≤ s.flen.toNat ∧
    s.walk.eidx.toNat ≤ s.walk.nbel.toNat) ∧
  (s.status.phase = .element → s.walk.eidx.toNat < s.walk.nbel.toNat)

/-- TSUM is the exact sum of the target sizes read so far (R146, R47): with the headers it makes up the way from the prefix to
where the walk stands. -/
abbrev State.SumInv (s : State) : Prop :=
  (s.status.phase = .target →
    s.walk.cur.toNat = 11 + s.walk.tidx.toNat * s.cfg.targetHdrLen + s.walk.tsum.toNat) ∧
  (s.status.phase ∈ [Phase.element, .tclose] →
    s.walk.tend.toNat = 11 + (s.walk.tidx.toNat + 1) * s.cfg.targetHdrLen + s.walk.tsum.toNat) ∧
  (s.status.phase = .done ∧ s.status.kind = true →
    s.walk.tidx.toNat = s.dfuse.tcnt.toNat ∧
    s.walk.cur.toNat = 11 + s.dfuse.tcnt.toNat * s.cfg.targetHdrLen + s.walk.tsum.toNat)

/-- The descriptor registers inside a target: OTGT names the current target, and a descriptor just emitted ends at CUR and has
the number before EIDX (R45, R139). -/
abbrev State.DescInv (s : State) : Prop :=
  s.status.phase ∈ [Phase.element, .tclose] →
    s.desc.tgt.index.toNat = s.walk.tidx.toNat ∧
    (s.status.outValid = true →
      s.desc.off.toNat + s.desc.size.toNat = s.walk.cur.toNat ∧ s.desc.elem.toNat + 1 = s.walk.eidx.toNat ∧
      s.status.addrKnown = true)

/-- The invariant: what holds at reset and is kept by every step. -/
abbrev State.Inv (s : State) : Prop :=
  s.FileInv ∧ s.PendInv ∧ s.RecordInv ∧ s.CrcFlagInv ∧ s.KindInv ∧ s.NoParserInv ∧ s.BodyInv ∧ s.WalkInv ∧ s.SumInv ∧
    s.DescInv

/-! ## Words the claims use -/

/-- The bytes FILE[a, a + n). -/
def Memory.bytes (m : Memory) (a n : Nat) : List Byte := (List.range' a n).map m.read

/-- The body of the loop of R100, with the polynomial written out: what claims say of a CRC rests on no constant of the machine. -/
def byteTurn (c : Word) : Word := if c.getLsbD 0 then (c >>> 1) ^^^ 0xEDB88320 else c >>> 1

/-- The update of an accumulator by one byte (40_crc.md R100): eight turns of the loop. -/
def byteUpdate (acc : Word) (d : Byte) : Word := Nat.repeat byteTurn 8 (acc ^^^ d.setWidth 32)

/-- An accumulator after absorbing a string, first byte first (`fold` of R102). -/
def absorbed (acc : Word) (b : List Byte) : Word := b.foldl byteUpdate acc

/-- `compute(b)` (40_crc.md R102), INIT written out. -/
def compute (c : Config) (b : List Byte) : Word := absorbed 0xFFFFFFFF b ^^^ c.xorWord

/-- The bytes that an absorbing command absorbs in `s` (R106 to R108), a range only if it lies in the file. -/
def State.bytesOf (s : State) : Instr → Option (List Byte)
  | .crcByte d => some [d]
  | .crcWord v => some [v.extractLsb' 0 8, v.extractLsb' 8 8, v.extractLsb' 16 8, v.extractLsb' 24 8]
  | .crcRange =>
    if s.crc.base.toNat + s.crc.len.toNat ≤ s.flen.toNat then some (s.file.bytes s.crc.base.toNat s.crc.len.toNat) else none
  | .nop | .crcInit | .crcCheck | .crcLoad _ | .crcResume _ | .prsStart | .prsStep | .prsNext | .prsRun | .prsPeek
  | .rd _ | .wr _ _ | .fclr | .srst => none

/-- The state after these commands, one after the other, where each answers a next state. -/
def execAll : List Instr → State → Option State
  | [], s => some s
  | i :: is, s =>
    match exec i s with
    | .next t => execAll is t
    | .fault _ | .refused _ => none

/-- `s` after a fault with this code and context is raised in it, none being recorded (60_exceptions.md R193). -/
def State.faulted (e : FaultCode) (off exp act : Word) (s : State) : State :=
  { s with record := ⟨e, off, exp, act⟩, status := { s.status with fault := true } }

/-- The state after IllegalCommand with word 0 `w0` and its response: recorded if no fault was, and no other effect
(30_encoding.md R85). -/
def State.afterIllegal (w0 : Word) (s : State) : State :=
  if s.status.fault then s.respondStatus else (s.faulted .illegalCommand 0 0 w0).respondStatus

/-- `s` after a parser transition failed in it with this code and context (41_parser.md, `fail`; 10_state.md R35): the fault is
recorded, PHASE is FAILED, OUT_VALID is 0. -/
def State.parseFailed (e : FaultCode) (off exp act : Nat) (s : State) : State :=
  { s with
    record := ⟨e, BitVec.ofNat 32 off, BitVec.ofNat 32 exp, BitVec.ofNat 32 act⟩
    status := { s.status with fault := true, outValid := false, phase := .failed } }

/-! ## Safe runs and what is observed -/

/-- The host's next move keeps its duty on FILE (R77, R225). -/
def State.hostKeepsFile (s : State) : Bool :=
  match s.port with
  | .fileByte a _ :: _ => !(s.status.phase.active && decide (a.toNat < s.flen.toNat))
  | [] | .word _ :: _ | .rst :: _ | .wordAbandoned _ :: _ => true

/-- A run has ended: every move is taken and no command is half delivered (R231). -/
def State.runEnded (s : State) : Bool := s.port == [] && s.pend == none

/-- The parse reached DONE with no fault recorded: what a claim about its results takes as a premise, and what the host's
keeping of descriptors rests on (R149, R231). -/
def State.parseGood (s : State) : Bool := s.status.phase == .done && !s.status.fault

/-- What is observed at the end of a run (R231), but for the descriptors (`shownFrom`). -/
structure Observation where
  registers : List Word
  responses : List Word
  file      : Memory
  deriving DecidableEq, Repr

/-- The register file by RD's view, the responses, and FILE (R231). -/
def State.observe (s : State) : Observation where
  registers := Reg.all.map s.readReg
  responses := s.responses
  file      := s.file

/-- The descriptor a state shows as new (R35, R231). -/
def State.emitted (s : State) : List Descriptor := if s.status.outValid then [s.desc] else []

/-- The descriptors that the next `n` transitions emit, in order, up to the end of the parse (R147). -/
def descriptorsFrom : Nat → State → List Descriptor
  | 0, _ => []
  | n + 1, s =>
    if s.status.phase.terminal then [] else (transition s).emitted ++ descriptorsFrom n (transition s)

/-- The headers and data of these elements fill FILE[p, e) without a gap: each header begins where the data before it ends
(R148). -/
def tiles (p e : Nat) : List Descriptor → Prop
  | [] => p = e
  | d :: ds => d.off.toNat = p + 8 ∧ tiles (p + 8 + d.size.toNat) e ds

/-- Where the parse that stands at `s` ends (R143, R145). -/
def parseEnd (s : State) : State := transitionsUntil runStop transitionLimit s

/-- What the next step shows of descriptors (R231): the descriptor registers and ADDR_KNOWN, where OUT_VALID = 1 after a PRS.STEP or
PRS.NEXT that was performed (assumption log 21). -/
def State.shown (s : State) : List (Descriptor × Bool) :=
  match takeMove s with
  | .settled _ => []
  | .run i t =>
    match exec i t with
    | .next u =>
      if (i == .prsStep || i == .prsNext) && !t.status.fault && u.status.outValid then [(u.desc, u.status.addrKnown)] else []
    | .fault _ | .refused _ => []

/-- The descriptors that the next `k` steps show, in order (R231). -/
def shownFrom : Nat → State → List (Descriptor × Bool)
  | 0, _ => []
  | k + 1, s =>
    s.shown ++
      match step s with
      | .next t => shownFrom k t
      | .fault _ | .refused _ => []

/-- The state after `n` transitions. -/
def transitions : Nat → State → State
  | 0, s => s
  | n + 1, s => transitions n (transition s)

end Sys2Proof.Machine
end

