-- ==== Sys2Proof/Certificates/Slice0/Obligations.lean ====
section
/-!
DEFINITION. The statements for the provers. Each docstring names the rules of spec/ it formalises or rests on. Bounds and sums are
written over Nat here, with their own conditions, where the model computes in Int.
-/

open Sys2Proof Sys2Proof.Machine

/-! ## Encoding and decoding -/

/-- R80 to R84, R89: the decoder gives back every command from its words, with every operand at every value, and leaves the words
after it. -/
def Obligations.DecodeOfEncodeIsTheCommand : Prop :=
  ∀ (i : Instr) (rest : List Word), decode (encode i ++ rest) = .ok (i, rest)

/-- R81, R83, R84: a pair of words decodes to at most the command whose encoding it is: word 0 exactly, word 1 exactly where OPC has
one. -/
def Obligations.DecodedWordsAreTheEncoding : Prop :=
  ∀ (w0 v : Word) (i : Instr), decodeWords w0 v = .ok i →
    i.word0 = w0 ∧ i.word1 = if isTwoWord w0 then some v else none

/-- The columns 'word-0 match' and 'mask' of R84, row by row. -/
def matchAndMask : List (Word × Word) :=
  [(0x00000000, 0xFFFFFFFF), (0x04000000, 0xFFFFFFFF), (0x08000000, 0xFFFFFF00), (0x0C000000, 0xFFFFFFFF),
   (0x10000000, 0xFFFFFFFF), (0x14000000, 0xFFFFFFFF), (0x18000000, 0xFFFFFFFF), (0x1C000000, 0xFFFFFFFF),
   (0x40000000, 0xFFFFFFFF), (0x44000000, 0xFFFFFFFF), (0x48000000, 0xFFFFFFFF), (0x4C000000, 0xFFFFFFFF),
   (0x50000000, 0xFFFFFFFF), (0x80000000, 0xFC1FFFFF), (0x84000000, 0xFC1FFFFF), (0xF8000000, 0xFFFFFFFF),
   (0xFC000000, 0xFFFFFFFF)]

/-- R81, R84, R86: the words of a command's shape are those that match a row of R84, and no two rows share a word; OPC values
0x08 to 0x0F, 0x15 to 0x1F and 0x22 to 0x3D are rejected as reserved. -/
def Obligations.ShapesAreTheRowsOfTheOpcodeMap : Prop :=
  (∀ w0 v : Word, (∃ i, decodeWords w0 v = .ok i) ↔ ∃ r ∈ matchAndMask, w0 &&& r.2 = r.1) ∧
  (∀ (w0 : Word) (r r' : Word × Word), r ∈ matchAndMask → r' ∈ matchAndMask →
    w0 &&& r.2 = r.1 → w0 &&& r'.2 = r'.1 → r = r') ∧
  (∀ w0 v : Word, let o := (opcOf w0).toNat
    (0x08 ≤ o ∧ o ≤ 0x0F ∨ 0x15 ≤ o ∧ o ≤ 0x1F ∨ 0x22 ≤ o ∧ o ≤ 0x3D) →
    decodeWords w0 v = .error .reservedOpcode)

/-- R84: words written out from the opcode map decode to the commands they stand for. -/
def Obligations.WordsOfTheMapDecode : Prop :=
  decodeWords 0b00001000000000000000000001100001 0 = .ok (.crcByte 0x61) ∧
  decodeWords 0b00001100000000000000000000000000 0x34333231 = .ok (.crcWord 0x34333231) ∧
  decodeWords 0b01000100000000000000000000000000 0 = .ok .prsStep ∧
  decodeWords 0b10000000010000000000000000000000 0 = .ok (.rd .res) ∧
  decodeWords 0b10000101011000000000000000000000 317 = .ok (.wr .flen 317) ∧
  decodeWords 0b11111100000000000000000000000000 0 = .ok .srst

/-! ## The command port -/

/-- R87, R82: a delivered word is executed by itself if OPC says one word; the first word of a two-word command is kept in PEND
without a response; the word after it is its operand. Where the words decode, the step is `exec` of the command. -/
def Obligations.StepRunsTheDecodedCommand : Prop :=
  (∀ (s : State) (w : Word) (rest : List HostMove) (i : Instr),
    s.port = .word w :: rest → s.pend = none → isTwoWord w = false → decodeWords w 0 = .ok i →
    step s = exec i { s with port := rest }) ∧
  (∀ (s : State) (w : Word) (rest : List HostMove),
    s.port = .word w :: rest → s.pend = none → isTwoWord w = true →
    step s = .next { s with port := rest, pend := some w }) ∧
  (∀ (s : State) (w0 v : Word) (rest : List HostMove) (i : Instr),
    s.port = .word v :: rest → s.pend = some w0 → decodeWords w0 v = .ok i →
    step s = exec i { s with port := rest, pend := none })

/-- R82: the length is decided by OPC alone, before any legality check, and the operand word is consumed whatever it is, even if
word 0 is illegal. -/
def Obligations.LengthIsDecidedByOpcAlone : Prop :=
  (∀ w : Word, isTwoWord w = true ↔ (opcOf w).toNat ∈ [0x03, 0x06, 0x07, 0x21]) ∧
  (∀ (s : State) (w v : Word) (rest : List HostMove), s.port = .word w :: .word v :: rest → s.pend = none →
    if (opcOf w).toNat ∈ [0x03, 0x06, 0x07, 0x21] then
      ∃ t u, step s = .next t ∧ t = { s with port := .word v :: rest, pend := some w } ∧
        step t = .next u ∧ u.port = rest ∧ u.pend = none
    else ∃ t, step s = .next t ∧ t.port = .word v :: rest ∧ t.pend = none)

/-- R85: the five grounds of illegality, and all an illegal command does. (a), (b): a word of no row of R84, whatever follows it;
(c), (d), (e): a register that does not exist, a register that is not RW, a PRS.* command without the parser. -/
def Obligations.IllegalCommandsOnlyRaise : Prop :=
  (∀ (s : State) (w0 v : Word), (∀ r ∈ matchAndMask, w0 &&& r.2 ≠ r.1) →
    step (s.deliver w0 v) = .next ({ s with pend := none }.afterIllegal w0)) ∧
  (∀ (s : State) (r : Reg),
    (r.num = 31 ∨ (s.cfg.hasParser = false ∧ 12 ≤ r.num.toNat ∧ r.num.toNat ≤ 29)) →
    exec (.rd r) s = .next (s.afterIllegal (Instr.rd r).word0)) ∧
  (∀ (s : State) (r : Reg) (v : Word), r.num ∉ [0, 1, 3, 4, 5, 11] →
    exec (.wr r v) s = .next (s.afterIllegal (Instr.wr r v).word0)) ∧
  (∀ (s : State) (i : Instr), s.cfg.hasParser = false → i ∈ [Instr.prsStart, .prsStep, .prsNext, .prsRun, .prsPeek] →
    exec i s = .next (s.afterIllegal i.word0))

/-- R88: every command produces exactly one response word: the value for a RD that reads, STATUS after the command for every other
one, 0 after SRST; the first word of a two-word command produces none. -/
def Obligations.EveryCommandRespondsOnce : Prop :=
  (∀ (i : Instr) (s : State), ∃ t v, exec i s = .next t ∧ t.responses = s.responses ++ [v] ∧
    ((∀ r, i = .rd r → i.legal s.cfg = true → v = s.readReg r) ∧
     (¬ (∃ r, i = .rd r ∧ i.legal s.cfg = true) → v = t.statusWord) ∧
     (i = .srst → v = 0))) ∧
  (∀ (s : State) (w v : Word) (e : DecodeError), decodeWords w v = .error e →
    ∃ t, step (s.deliver w v) = .next t ∧ t.responses = s.responses ++ [t.statusWord]) ∧
  (∀ (s : State) (w : Word) (rest : List HostMove), s.port = .word w :: rest → s.pend = none →
    isTwoWord w = true → ∃ t, step s = .next t ∧ t.responses = s.responses)

/-- R195, R193: while FAULT = 1 every legal command but NOP, RD, PRS.PEEK, FCLR and SRST changes no register and responds
STATUS, in which FAULT is 1. -/
def Obligations.CommandsAreRejectedWhileAFaultIsRecorded : Prop :=
  ∀ (i : Instr) (s : State), s.status.fault = true → i.legal s.cfg = true →
    (i ≠ .nop ∧ (∀ r, i ≠ .rd r) ∧ i ≠ .prsPeek ∧ i ≠ .fclr ∧ i ≠ .srst) →
    exec i s = .next s.respondStatus ∧ s.statusWord.getLsbD 7 = true

/-- R193, R199: while FAULT = 1 no command changes the fault record or clears FAULT, but FCLR and SRST, which clear
both. -/
def Obligations.FirstFaultWins : Prop :=
  ∀ (i : Instr) (s t : State), s.status.fault = true → exec i s = .next t →
    if i = .fclr ∨ i = .srst then t.status.fault = false ∧ t.record = ⟨.none, 0, 0, 0⟩
    else t.status.fault = true ∧ t.record = s.record

/-- R226, R220: NOP then SRST lead from any state to the reset state of its configuration, whether or not a word was pending. -/
def Obligations.NopThenSrstResynchronises : Prop :=
  ∀ (s : State) (rest : List HostMove), s.port = .word 0x00000000 :: .word 0xFC000000 :: rest →
    ∃ t u r, step s = .next t ∧ step t = .next u ∧ t.responses = s.responses ++ [r] ∧
      u = { State.resetIn s.cfg with file := s.file, port := rest, responses := s.responses ++ [r, 0] }

/-- R228, R220, R77: RST, and RST asserted while a command executes, lead to the reset state with no response and FILE
unchanged; a host's write into FILE changes that byte of FILE and nothing else while PHASE is inactive or at or above FLEN, and
is the model's stop below FLEN while PHASE is active (assumption log 1, 8, 10). -/
def Obligations.HostMovesDoWhatTheyDo : Prop :=
  (∀ (s : State) (m : HostMove) (rest : List HostMove), s.port = m :: rest →
    (m = .rst ∨ ∃ w, m = .wordAbandoned w) →
    step s = .next { State.resetIn s.cfg with file := s.file, port := rest, responses := s.responses }) ∧
  (∀ (s : State) (a : Word) (b : Byte) (rest : List HostMove), s.port = .fileByte a b :: rest → s.FileInv →
    (s.status.phase.active = false ∨ s.flen.toNat ≤ a.toNat) →
    ∃ t, step s = .next t ∧ t = { s with port := rest, file := t.file } ∧
      ∀ x, t.file.read x = if x = a.toNat then b else s.file.read x) ∧
  (∀ (s : State) (a : Word) (b : Byte) (rest : List HostMove), s.port = .fileByte a b :: rest →
    s.status.phase.active = true → a.toNat < s.flen.toNat → step s = .fault .fileWrittenDuringParse)

/-- R198, R87, R77: the machine never stops but at a host's write into FILE[0, FLEN) during a parse (assumption log 8). -/
def Obligations.OnlyAHostWriteDuringAParseStops : Prop :=
  ∀ s : State, (∃ t, step s = .next t) ↔ s.hostKeepsFile = true

/-! ## The CRC family -/

/-- NOP (R104). -/
def Obligations.NopOnlyResponds : Prop :=
  ∀ s : State, encode .nop = [0x00000000] ∧ exec .nop s = .next s.respondStatus ∧
    (∀ w v, opcOf w = 0x00 → w ≠ 0x00000000 →
      step (s.deliver w v) = .next ({ s with pend := none }.afterIllegal w))

/-- CRC.INIT (R105). -/
def Obligations.CrcInitSetsTheAccumulator : Prop :=
  ∀ s : State, encode .crcInit = [0x04000000] ∧
    (∀ w v, opcOf w = 0x01 → w ≠ 0x04000000 →
      step (s.deliver w v) = .next ({ s with pend := none }.afterIllegal w)) ∧
    (s.status.fault = true → exec .crcInit s = .next s.respondStatus) ∧
    (s.status.fault = false → exec .crcInit s = .next
      { s with
        crc := { s.crc with acc := 0xFFFFFFFF, cnt := 0 }
        status := { s.status with matched := false, checked := false } }.respondStatus)

/-- CRC.BYTE (R106, R100): one byte update by the loop of R100, CNT plus 1 modulo 2^32. -/
def Obligations.CrcByteAbsorbsOneByte : Prop :=
  ∀ (d : Byte) (s : State), encode (.crcByte d) = [0x08000000 ||| d.setWidth 32] ∧
    (∀ w v, opcOf w = 0x02 → w &&& 0xFFFFFF00 ≠ 0x08000000 →
      step (s.deliver w v) = .next ({ s with pend := none }.afterIllegal w)) ∧
    (s.status.fault = true → exec (.crcByte d) s = .next s.respondStatus) ∧
    (s.status.fault = false → exec (.crcByte d) s = .next
      { s with crc := { s.crc with acc := byteUpdate s.crc.acc d, cnt := s.crc.cnt + 1 } }.respondStatus)

/-- CRC.WORD (R107): the four bytes of V, least significant first, CNT plus 4; CRC.WORD of the little-endian value of four FILE
bytes does to ACC what absorbing those bytes in address order does. -/
def Obligations.CrcWordAbsorbsFourBytes : Prop :=
  ∀ (v : Word) (s : State), encode (.crcWord v) = [0x0C000000, v] ∧
    (∀ w v', opcOf w = 0x03 → w ≠ 0x0C000000 →
      step (s.deliver w v') = .next ({ s with pend := none }.afterIllegal w)) ∧
    (s.status.fault = true → exec (.crcWord v) s = .next s.respondStatus) ∧
    (s.status.fault = false → exec (.crcWord v) s = .next
      { s with crc := { s.crc with
          acc := absorbed s.crc.acc [v.extractLsb' 0 8, v.extractLsb' 8 8, v.extractLsb' 16 8, v.extractLsb' 24 8]
          cnt := s.crc.cnt + 4 } }.respondStatus) ∧
    (∀ a : Nat, v = s.file.readLE a 4 → s.status.fault = false → ∃ t, exec (.crcWord v) s = .next t ∧
      t.crc.acc = absorbed s.crc.acc [s.file.read a, s.file.read (a + 1), s.file.read (a + 2), s.file.read (a + 3)])

/-- CRC.RANGE (R108): the bytes FILE[BASE, BASE + LEN) into ACC, LEN onto CNT; RangeFault and nothing else where the exact sum
passes FLEN. -/
def Obligations.CrcRangeAbsorbsARangeOrFaults : Prop :=
  ∀ s : State, encode .crcRange = [0x10000000] ∧
    (∀ w v, opcOf w = 0x04 → w ≠ 0x10000000 →
      step (s.deliver w v) = .next ({ s with pend := none }.afterIllegal w)) ∧
    (s.status.fault = true → exec .crcRange s = .next s.respondStatus) ∧
    (s.status.fault = false → s.crc.base.toNat + s.crc.len.toNat > s.flen.toNat →
      exec .crcRange s = .next (s.faulted .rangeFault s.crc.base s.crc.len s.flen).respondStatus) ∧
    (s.status.fault = false → s.crc.base.toNat + s.crc.len.toNat ≤ s.flen.toNat →
      exec .crcRange s = .next
        { s with crc := { s.crc with
            acc := absorbed s.crc.acc (s.file.bytes s.crc.base.toNat s.crc.len.toNat)
            cnt := s.crc.cnt + s.crc.len } }.respondStatus)

/-- CRC.CHECK (R109): MATCH says whether ACC ^ XOROUT = EXP, CHECKED is set; a mismatch raises nothing. -/
def Obligations.CrcCheckCompares : Prop :=
  ∀ s : State, encode .crcCheck = [0x14000000] ∧
    (∀ w v, opcOf w = 0x05 → w ≠ 0x14000000 →
      step (s.deliver w v) = .next ({ s with pend := none }.afterIllegal w)) ∧
    (s.status.fault = true → exec .crcCheck s = .next s.respondStatus) ∧
    (s.status.fault = false → exec .crcCheck s = .next
      { s with status := { s.status with
          matched := decide (s.crc.acc ^^^ s.cfg.xorWord = s.crc.exp), checked := true } }.respondStatus)

/-- CRC.LOAD (R110), and that WR ACC does the same to the state (R171). -/
def Obligations.CrcLoadLoadsTheRawAccumulator : Prop :=
  ∀ (v : Word) (s : State), encode (.crcLoad v) = [0x18000000, v] ∧
    (∀ w v', opcOf w = 0x06 → w ≠ 0x18000000 →
      step (s.deliver w v') = .next ({ s with pend := none }.afterIllegal w)) ∧
    (s.status.fault = true → exec (.crcLoad v) s = .next s.respondStatus) ∧
    (s.status.fault = false → exec (.crcLoad v) s = .next { s with crc := { s.crc with acc := v } }.respondStatus) ∧
    exec (.wr .acc v) s = exec (.crcLoad v) s

/-- CRC.RESUME (R111): ACC <- V ^ XOROUT, after which RES is V. -/
def Obligations.CrcResumeLoadsTheFinalisedCrc : Prop :=
  ∀ (v : Word) (s : State), encode (.crcResume v) = [0x1C000000, v] ∧
    (∀ w v', opcOf w = 0x07 → w ≠ 0x1C000000 →
      step (s.deliver w v') = .next ({ s with pend := none }.afterIllegal w)) ∧
    (s.status.fault = true → exec (.crcResume v) s = .next s.respondStatus) ∧
    (s.status.fault = false → ∃ t, exec (.crcResume v) s = .next t ∧
      t = { s with crc := { s.crc with acc := v ^^^ s.cfg.xorWord } }.respondStatus ∧ t.readReg .res = v)

/-- R103: with no fault recorded, absorbing commands in any number and mix leave in ACC, and count in CNT, their bytes absorbed at
once; after CRC.INIT they leave compute of their bytes in RES; after CRC.LOAD of the raw accumulator of `a`, or CRC.RESUME of
compute(a), they leave compute of `a` followed by their bytes; and one CRC.RANGE does what two over its parts do. -/
def Obligations.CrcIsIncremental : Prop :=
  (∀ (s : State) (is : List Instr) (bs : List (List Byte)), s.status.fault = false →
    List.Forall₂ (fun i b => s.bytesOf i = some b) is bs →
    (∃ t, execAll is s = some t ∧ t.crc.acc = absorbed s.crc.acc bs.flatten ∧
      t.crc.cnt = s.crc.cnt + BitVec.ofNat 32 bs.flatten.length) ∧
    (∃ t, execAll (.crcInit :: is) s = some t ∧ t.readReg .res = compute s.cfg bs.flatten) ∧
    ∀ a : List Byte,
      (∃ t, execAll (.crcLoad (absorbed 0xFFFFFFFF a) :: is) s = some t ∧
        t.readReg .res = compute s.cfg (a ++ bs.flatten)) ∧
      (∃ t, execAll (.crcResume (compute s.cfg a) :: is) s = some t ∧
        t.readReg .res = compute s.cfg (a ++ bs.flatten))) ∧
  (∀ (s : State) (base n k : Word), s.status.fault = false → base.toNat + n.toNat + k.toNat ≤ s.flen.toNat →
    ∃ t u, execAll [.wr .base base, .wr .len (n + k), .crcRange] s = some t ∧
      execAll [.wr .base base, .wr .len n, .crcRange, .wr .base (base + n), .wr .len k, .crcRange] s = some u ∧
      t.crc.acc = u.crc.acc ∧ t.crc.cnt = u.crc.cnt ∧ t.readReg .res = u.readReg .res)

/-- R112: flipping any single bit of the input changes the CRC. -/
def Obligations.AnySingleBitFlipChangesTheCrc : Prop :=
  ∀ (c : Config) (a b : List Byte) (d : Byte) (j : Nat), j < 8 →
    compute c (a ++ d :: b) ≠ compute c (a ++ (d ^^^ BitVec.twoPow 8 j) :: b)

/-- R90, R102: the words of `CRC.COMPUTE base, len`, delivered to the block with no word pending and no fault recorded, end with
the response compute(FILE[base, base + len)). -/
def Obligations.CrcComputeAnswersTheCrc : Prop :=
  ∀ (s : State) (base len : Word), s.pend = none → s.status.fault = false →
    base.toNat + len.toNat ≤ s.flen.toNat →
    s.port = ((Pseudo.compute base len).expand.flatMap encode).map HostMove.word →
    ∃ t rs, Host.Core.run core 7 s = .next t ∧ t.responses = s.responses ++ rs ∧ rs.length = 5 ∧
      rs.getLast? = some (compute s.cfg (s.file.bytes base.toNat len.toNat)) ∧ t.status.fault = false

/-! ## The parser -/

/-- PRS.START (R132). -/
def Obligations.PrsStartClearsTheParser : Prop :=
  ∀ s : State, s.cfg.hasParser = true → encode .prsStart = [0x40000000] ∧
    (∀ w v, opcOf w = 0x10 → w ≠ 0x40000000 →
      step (s.deliver w v) = .next ({ s with pend := none }.afterIllegal w)) ∧
    (s.status.fault = true → exec .prsStart s = .next s.respondStatus) ∧
    (s.status.fault = false → exec .prsStart s = .next
      { s with
        status := { s.status with crcValid := false, warnCrc := false, kind := false, outValid := false,
                                  addrKnown := false, phase := .suffix }
        dfuse := ⟨0, 0, 0⟩
        suffix := ⟨0, 0, 0, 0⟩
        desc := ⟨⟨0, 0, false⟩, 0, 0, 0, 0⟩
        walk := ⟨0, 0, 0, 0, 0, 0⟩ }.respondStatus)

/-- PRS.STEP (R133): SequenceError in IDLE and nothing else, otherwise exactly one transition. -/
def Obligations.PrsStepIsOneTransition : Prop :=
  ∀ s : State, s.cfg.hasParser = true → encode .prsStep = [0x44000000] ∧
    (∀ w v, opcOf w = 0x11 → w ≠ 0x44000000 →
      step (s.deliver w v) = .next ({ s with pend := none }.afterIllegal w)) ∧
    (s.status.fault = true → exec .prsStep s = .next s.respondStatus) ∧
    (s.status.fault = false → s.status.phase = .idle →
      exec .prsStep s = .next (s.faulted .sequenceError 0 0 0x44000000).respondStatus) ∧
    (s.status.fault = false → s.status.phase ≠ .idle → exec .prsStep s = .next (transition s).respondStatus)

/-- The SUFFIX transition (R134, R69): TruncatedFile below 16 bytes; otherwise the fields are latched, and the first wrong signature
byte, if any, is reported. -/
def Obligations.SuffixTransition : Prop :=
  ∀ s : State, s.cfg.hasParser = true → s.status.fault = false → s.status.phase = .suffix →
    let p := s.flen.toNat - 16
    let f := s.file
    let latched : State := { s with suffix :=
      { sdp := (f.readLE (p + 2) 2).setWidth 16 ++ (f.readLE p 2).setWidth 16
        svd := (f.readLE (p + 6) 2).setWidth 16 ++ (f.readLE (p + 4) 2).setWidth 16
        slen := f.read (p + 11)
        scrc := f.readLE (p + 12) 4 } }
    let bad (k : Nat) (b : Byte) := exec .prsStep s = .next
      (latched.parseFailed .badSignature (p + 8 + k) b.toNat (f.read (p + 8 + k)).toNat).respondStatus
    if s.flen.toNat < 16 then
      exec .prsStep s = .next (s.parseFailed .truncatedFile 0 16 s.flen.toNat).respondStatus
    else if f.read (p + 8) ≠ 0x55 then bad 0 0x55
    else if f.read (p + 9) ≠ 0x46 then bad 1 0x46
    else if f.read (p + 10) ≠ 0x44 then bad 2 0x44
    else exec .prsStep s = .next
      { latched with status := { s.status with outValid := false, phase := .sufcrc } }.respondStatus

/-- The SUFCRC transition (R135, R192): ACC over FILE[0, FLEN - 4), CNT, EXP, and the verdict in MATCH, CHECKED, CRC_VALID and WARN_CRC;
it never fails. -/
def Obligations.SufcrcTransition : Prop :=
  ∀ s : State, s.Inv → s.status.fault = false → s.status.phase = .sufcrc →
    let acc := absorbed 0xFFFFFFFF (s.file.bytes 0 (s.flen.toNat - 4))
    let m := decide (acc ^^^ s.cfg.xorWord = s.suffix.scrc)
    exec .prsStep s = .next
      { s with
        crc := { s.crc with acc := acc, cnt := BitVec.ofNat 32 (s.flen.toNat - 4), exp := s.suffix.scrc }
        status := { s.status with matched := m, checked := true, crcValid := m, warnCrc := !m, outValid := false,
                                  phase := .dfusePrefix } }.respondStatus

/-- The PREFIX transition (R136, R70): plain without the five bytes "DfuSe"; with them the prefix must fit, ISIZE must not pass
bodyEnd, and bTargets must not be 0, in this order. -/
def Obligations.PrefixTransition : Prop :=
  ∀ s : State, s.Inv → s.status.fault = false → s.status.phase = .dfusePrefix →
    let f := s.file
    let bodyEnd := s.flen.toNat - 16
    let isize := f.readLE 6 4
    let found : State := { s with status := { s.status with kind := true } }
    let read : State := { found with dfuse := { tcnt := f.read 10, isize := isize, pver := f.read 5 } }
    if f.bytes 0 5 ≠ [0x44, 0x66, 0x75, 0x53, 0x65] then
      exec .prsStep s = .next
        { s with status := { s.status with kind := false, outValid := false, phase := .plain } }.respondStatus
    else if bodyEnd < 11 then
      exec .prsStep s = .next (found.parseFailed .truncatedFile 0 11 bodyEnd).respondStatus
    else if isize.toNat > bodyEnd then
      exec .prsStep s = .next (read.parseFailed .malformedPrefix 6 bodyEnd isize.toNat).respondStatus
    else if f.read 10 = 0 then
      exec .prsStep s = .next (read.parseFailed .malformedPrefix 10 1 0).respondStatus
    else exec .prsStep s = .next
      { read with
        walk := { s.walk with cur := 11, tidx := 0, tsum := 0 }
        status := { s.status with kind := true, outValid := false, phase := .target } }.respondStatus

/-- The PLAIN transition (R137): one descriptor of FLEN - 16 bytes at offset 0, its address unknown. -/
def Obligations.PlainTransition : Prop :=
  ∀ s : State, s.Inv → s.status.fault = false → s.status.phase = .plain →
    exec .prsStep s = .next
      { s with
        desc := ⟨⟨0, 0, false⟩, 0, 0, 0, BitVec.ofNat 32 (s.flen.toNat - 16)⟩
        walk := { s.walk with cur := BitVec.ofNat 32 (s.flen.toNat - 16) }
        status := { s.status with addrKnown := false, outValid := true, phase := .done } }.respondStatus

/-- The TARGET transition (R138, R71): the header must fit in the body, its first six bytes must be "Target" (the first wrong one is
reported), OTGT, NBEL, EIDX and TSUM are written, and then the span must fit in the body. -/
def Obligations.TargetTransition : Prop :=
  ∀ s : State, s.Inv → s.status.fault = false → s.status.phase = .target →
    let f := s.file
    let p := s.walk.cur.toNat
    let nb := if s.cfg.namedBytes = .four then 4 else 1
    let th := 270 + nb
    let bodyEnd := s.flen.toNat - 16
    let tag := [0x54, 0x61, 0x72, 0x67, 0x65, 0x74]
    let tsize := f.readLE (p + 262 + nb) 4
    let nbel := f.readLE (p + 266 + nb) 4
    let latched : State := { s with
      desc := { s.desc with tgt := { index := s.walk.tidx.setWidth 8, alt := f.read (p + 6),
                                     named := decide (f.readLE (p + 7) nb ≠ 0) } }
      walk := { s.walk with nbel := nbel, eidx := 0, tsum := s.walk.tsum + tsize } }
    if p + th > bodyEnd then
      exec .prsStep s = .next (s.parseFailed .truncatedFile p th (bodyEnd - p)).respondStatus
    else if f.bytes p 6 ≠ tag then
      ∀ k, k < 6 → f.bytes p k = tag.take k → f.read (p + k) ≠ tag.getD k 0 →
        exec .prsStep s = .next (s.parseFailed .badTargetSignature (p + k) (tag.getD k 0).toNat
          (f.read (p + k)).toNat).respondStatus
    else if p + th + tsize.toNat > bodyEnd then
      exec .prsStep s = .next
        (latched.parseFailed .truncatedFile (p + th) tsize.toNat (bodyEnd - (p + th))).respondStatus
    else exec .prsStep s = .next
      { latched with
        walk := { latched.walk with cur := BitVec.ofNat 32 (p + th), tend := BitVec.ofNat 32 (p + th + tsize.toNat) }
        status := { s.status with outValid := false, phase := if nbel = 0 then .tclose else .element } }.respondStatus

/-- The ELEMENT transition (R139, R72): the header, then the data must fit in the target's span; then one descriptor. -/
def Obligations.ElementTransition : Prop :=
  ∀ s : State, s.Inv → s.status.fault = false → s.status.phase = .element →
    let f := s.file
    let p := s.walk.cur.toNat
    let tend := s.walk.tend.toNat
    let size := f.readLE (p + 4) 4
    if p + 8 > tend then
      exec .prsStep s = .next (s.parseFailed .truncatedTarget p 8 (tend - p)).respondStatus
    else if p + 8 + size.toNat > tend then
      exec .prsStep s = .next (s.parseFailed .truncatedTarget (p + 8) size.toNat (tend - (p + 8))).respondStatus
    else exec .prsStep s = .next
      { s with
        desc := { s.desc with elem := s.walk.eidx, addr := f.readLE p 4, off := BitVec.ofNat 32 (p + 8), size := size }
        walk := { s.walk with cur := BitVec.ofNat 32 (p + 8 + size.toNat), eidx := s.walk.eidx + 1 }
        status := { s.status with
          addrKnown := true, outValid := true,
          phase := if s.walk.eidx.toNat + 1 = s.walk.nbel.toNat then .tclose else .element } }.respondStatus

/-- The TCLOSE transition (R140): TruncatedTarget unless the span is consumed exactly; then the next target, or DONE after the
last. -/
def Obligations.TcloseTransition : Prop :=
  ∀ s : State, s.Inv → s.status.fault = false → s.status.phase = .tclose →
    if s.walk.cur ≠ s.walk.tend then
      exec .prsStep s = .next
        (s.parseFailed .truncatedTarget s.walk.cur.toNat s.walk.tend.toNat s.walk.cur.toNat).respondStatus
    else exec .prsStep s = .next
      { s with
        walk := { s.walk with tidx := s.walk.tidx + 1 }
        status := { s.status with
          outValid := false
          phase := if s.walk.tidx.toNat + 1 = s.dfuse.tcnt.toNat then .done else .target } }.respondStatus

/-- The terminal phases (R141): PRS.STEP, PRS.NEXT and PRS.RUN clear OUT_VALID and change nothing else. -/
def Obligations.TerminalPhasesStay : Prop :=
  ∀ s : State, s.cfg.hasParser = true → s.status.fault = false → (s.status.phase = .done ∨ s.status.phase = .failed) →
    ∀ i ∈ [Instr.prsStep, .prsNext, .prsRun],
      exec i s = .next { s with status := { s.status with outValid := false } }.respondStatus

/-- PRS.NEXT (R142): SequenceError in IDLE; otherwise at least one transition, and no more than to the first state with OUT_VALID = 1
or PHASE in DONE or FAILED, which is always reached (R145). -/
def Obligations.PrsNextRunsToTheNextElement : Prop :=
  ∀ s : State, s.cfg.hasParser = true → encode .prsNext = [0x48000000] ∧
    (∀ w v, opcOf w = 0x12 → w ≠ 0x48000000 →
      step (s.deliver w v) = .next ({ s with pend := none }.afterIllegal w)) ∧
    (s.status.fault = true → exec .prsNext s = .next s.respondStatus) ∧
    (s.status.fault = false → s.status.phase = .idle →
      exec .prsNext s = .next (s.faulted .sequenceError 0 0 0x48000000).respondStatus) ∧
    (s.status.fault = false → s.status.phase ≠ .idle →
      ∃ n, 1 ≤ n ∧ exec .prsNext s = .next (transitions n s).respondStatus ∧
        ((transitions n s).status.outValid = true ∨ (transitions n s).status.phase ∈ [Phase.done, .failed]) ∧
        ∀ k, 1 ≤ k → k < n →
          ¬ ((transitions k s).status.outValid = true ∨ (transitions k s).status.phase ∈ [Phase.done, .failed]))

/-- PRS.RUN (R143): SequenceError in IDLE; otherwise at least one transition, and no more than to the first state with PHASE in
DONE or FAILED, which is always reached (R145). -/
def Obligations.PrsRunRunsToTheEnd : Prop :=
  ∀ s : State, s.cfg.hasParser = true → encode .prsRun = [0x4C000000] ∧
    (∀ w v, opcOf w = 0x13 → w ≠ 0x4C000000 →
      step (s.deliver w v) = .next ({ s with pend := none }.afterIllegal w)) ∧
    (s.status.fault = true → exec .prsRun s = .next s.respondStatus) ∧
    (s.status.fault = false → s.status.phase = .idle →
      exec .prsRun s = .next (s.faulted .sequenceError 0 0 0x4C000000).respondStatus) ∧
    (s.status.fault = false → s.status.phase ≠ .idle →
      ∃ n, 1 ≤ n ∧ exec .prsRun s = .next (transitions n s).respondStatus ∧
        (transitions n s).status.phase ∈ [Phase.done, .failed] ∧
        ∀ k, 1 ≤ k → k < n → (transitions k s).status.phase ∉ [Phase.done, .failed])

/-- PRS.PEEK (R144): PEEK says whether FLEN is at least 5 and FILE begins with "DfuSe"; it is never rejected. -/
def Obligations.PrsPeekDetectsDfuse : Prop :=
  ∀ s : State, s.cfg.hasParser = true → encode .prsPeek = [0x50000000] ∧
    (∀ w v, opcOf w = 0x14 → w ≠ 0x50000000 →
      step (s.deliver w v) = .next ({ s with pend := none }.afterIllegal w)) ∧
    exec .prsPeek s = .next
      { s with status := { s.status with
          peek := decide (5 ≤ s.flen.toNat ∧ s.file.bytes 0 5 = [0x44, 0x66, 0x75, 0x53, 0x65]) } }.respondStatus

/-- R130: PHASE moves in a transition only along the edges of the table. -/
def Obligations.PhaseMovesAlongTheEdges : Prop :=
  ∀ s : State, s.status.phase ≠ .idle →
    (transition s).status.phase ∈ (match s.status.phase with
      | .idle => []
      | .suffix => [Phase.sufcrc, .failed]
      | .sufcrc => [.dfusePrefix]
      | .dfusePrefix => [.plain, .target, .failed]
      | .plain => [.done]
      | .target => [.element, .tclose, .failed]
      | .element => [.element, .tclose, .failed]
      | .tclose => [.target, .done, .failed]
      | .done => [.done]
      | .failed => [.failed])

/-- R145: from the state PRS.START leaves, the parse ends after at most 4 + 2 * TCNT + NE transitions, 4 if the file is no DfuSe
file, where NE is the number of elements emitted and at most (FLEN - 27) / 8. -/
def Obligations.ParseEndsWithinTheBound : Prop :=
  ∀ s : State, s.Inv → s.status.phase = .suffix →
    ∃ n, (transitions n s).status.phase.terminal = true ∧ (∀ k, k < n → (transitions k s).status.phase.terminal = false) ∧
      ((transitions n s).status.kind = false → n ≤ 4) ∧
      ((transitions n s).status.kind = true →
        n ≤ 4 + 2 * (transitions n s).dfuse.tcnt.toNat + (descriptorsFrom n s).length ∧
        (descriptorsFrom n s).length ≤ (s.flen.toNat - 27) / 8)

/-- R147: descriptors come in file order: OOFF strictly rising by more than the data before it, targets by rising index, elements by
rising number within a target; and each one's data lies in the body. -/
def Obligations.DescriptorsComeInFileOrder : Prop :=
  ∀ (n : Nat) (s : State), s.Inv →
    (descriptorsFrom n s).Pairwise (fun d e =>
      d.off.toNat + d.size.toNat + 8 ≤ e.off.toNat ∧
      (d.tgt.index.toNat < e.tgt.index.toNat ∨ (d.tgt = e.tgt ∧ d.elem.toNat < e.elem.toNat))) ∧
    ∀ d ∈ descriptorsFrom n s, d.off.toNat + d.size.toNat + 16 ≤ s.flen.toNat

/-- R148: in a parse that reaches DONE, the element headers and data of a target tile its span exactly, each header beginning where
the data before it ends, and add up to its dwTargetSize; from inside a target the remaining ones tile FILE[CUR, TEND); over a
whole DfuSe parse they add up to TSUM. -/
def Obligations.ElementsTileTheirTarget : Prop :=
  (∀ s : State, s.Inv → s.status.phase = .target → (parseEnd s).status.phase = .done →
    let nb := if s.cfg.namedBytes = .four then 4 else 1
    let start := s.walk.cur.toNat + (270 + nb)
    let tsize := (s.file.readLE (s.walk.cur.toNat + 262 + nb) 4).toNat
    let own := (descriptorsFrom transitionLimit s).filter (fun d => d.tgt.index.toNat = s.walk.tidx.toNat)
    tiles start (start + tsize) own ∧ (own.map (fun d => 8 + d.size.toNat)).sum = tsize) ∧
  (∀ s : State, s.Inv → s.status.phase = .element → (parseEnd s).status.phase = .done →
    tiles s.walk.cur.toNat s.walk.tend.toNat
      ((descriptorsFrom transitionLimit s).filter (fun d => d.tgt.index = s.desc.tgt.index))) ∧
  (∀ s : State, s.Inv → s.status.phase = .suffix → (parseEnd s).status.phase = .done →
    (parseEnd s).status.kind = true →
    ((descriptorsFrom transitionLimit s).map (fun d => 8 + d.size.toNat)).sum = (parseEnd s).walk.tsum.toNat)

/-! ## Register access and control -/

/-- RD (R170): the value, and no change; it is never rejected; the register numbers are those of R22, ECODE reads the code column of
R191, and the views and the byte-wide fields read as their rules say (R25, R40, R43 to R45). -/
def Obligations.RdAnswersTheRegister : Prop :=
  [Reg.acc, .cnt, .res, .base, .len, .exp, .status, .ecode, .eoff, .eexp, .eact, .flen, .tcnt, .isize, .pver, .sdp,
    .svd, .slen, .scrc, .otgt, .oelem, .oaddr, .ooff, .osize, .cur, .tend, .tidx, .nbel, .eidx, .tsum, .id, .r31].map
    (fun r => r.num.toNat) = List.range 32 ∧
  ∀ (r : Reg) (s : State), encode (.rd r) = [0x80000000 ||| (r.num.setWidth 32 <<< 21)] ∧
    (∀ w v, opcOf w = 0x20 → w &&& 0xFC1FFFFF ≠ 0x80000000 →
      step (s.deliver w v) = .next ({ s with pend := none }.afterIllegal w)) ∧
    (r.num ≠ 31 → (s.cfg.hasParser = true ∨ ¬ (12 ≤ r.num.toNat ∧ r.num.toNat ≤ 29)) →
      exec (.rd r) s = .next (s.respond (s.readReg r))) ∧
    (r.num = 31 ∨ (s.cfg.hasParser = false ∧ 12 ≤ r.num.toNat ∧ r.num.toNat ≤ 29) →
      exec (.rd r) s = .next (s.afterIllegal (0x80000000 ||| (r.num.setWidth 32 <<< 21)))) ∧
    [Reg.acc, .cnt, .res, .base, .len, .exp, .status].map s.readReg =
      [s.crc.acc, s.crc.cnt, s.crc.acc ^^^ s.cfg.xorWord, s.crc.base, s.crc.len, s.crc.exp, s.statusWord] ∧
    s.readReg .ecode = (match s.record.code with
      | .none => 0
      | .truncatedFile => 1
      | .badSignature => 2
      | .badTargetSignature => 3
      | .malformedPrefix => 4
      | .truncatedTarget => 5
      | .checksumMismatch => 6
      | .illegalCommand => 7
      | .rangeFault => 8
      | .sequenceError => 9) ∧
    [Reg.eoff, .eexp, .eact, .flen].map s.readReg = [s.record.off, s.record.exp, s.record.act, s.flen] ∧
    [(s.readReg .tcnt).toNat, (s.readReg .pver).toNat, (s.readReg .slen).toNat] =
      [s.dfuse.tcnt.toNat, s.dfuse.pver.toNat, s.suffix.slen.toNat] ∧
    [Reg.isize, .sdp, .svd, .scrc].map s.readReg = [s.dfuse.isize, s.suffix.sdp, s.suffix.svd, s.suffix.scrc] ∧
    (s.readReg .otgt).toNat =
      s.desc.tgt.index.toNat + 2 ^ 8 * s.desc.tgt.alt.toNat + 2 ^ 16 * (if s.desc.tgt.named then 1 else 0) ∧
    [Reg.oelem, .oaddr, .ooff, .osize].map s.readReg = [s.desc.elem, s.desc.addr, s.desc.off, s.desc.size] ∧
    [Reg.cur, .tend, .tidx, .nbel, .eidx, .tsum].map s.readReg =
      [s.walk.cur, s.walk.tend, s.walk.tidx, s.walk.nbel, s.walk.eidx, s.walk.tsum]

/-- WR (R171, R172): all 32 bits of ACC, CNT, BASE, LEN or EXP, and of FLEN while PHASE is inactive; SequenceError and nothing else
for FLEN while it is active, which without the parser it never is (by the invariant); IllegalCommand for any other register. -/
def Obligations.WrWritesTheRegister : Prop :=
  ∀ (v : Word) (s : State),
    (∀ r : Reg, encode (.wr r v) = [0x84000000 ||| (r.num.setWidth 32 <<< 21), v]) ∧
    (∀ w v', opcOf w = 0x21 → w &&& 0xFC1FFFFF ≠ 0x84000000 →
      step (s.deliver w v') = .next ({ s with pend := none }.afterIllegal w)) ∧
    (∀ r : Reg, r.num ∉ [0, 1, 3, 4, 5, 11] →
      exec (.wr r v) s = .next (s.afterIllegal (0x84000000 ||| (r.num.setWidth 32 <<< 21)))) ∧
    (s.status.fault = true → ∀ r ∈ [Reg.acc, .cnt, .base, .len, .exp, .flen],
      exec (.wr r v) s = .next s.respondStatus) ∧
    (s.status.fault = false →
      exec (.wr .acc v) s = .next { s with crc := { s.crc with acc := v } }.respondStatus ∧
      exec (.wr .cnt v) s = .next { s with crc := { s.crc with cnt := v } }.respondStatus ∧
      exec (.wr .base v) s = .next { s with crc := { s.crc with base := v } }.respondStatus ∧
      exec (.wr .len v) s = .next { s with crc := { s.crc with len := v } }.respondStatus ∧
      exec (.wr .exp v) s = .next { s with crc := { s.crc with exp := v } }.respondStatus) ∧
    (s.status.fault = false → s.status.phase ∈ [Phase.idle, .done, .failed] →
      exec (.wr .flen v) s = .next { s with flen := v }.respondStatus) ∧
    (s.status.fault = false → s.status.phase ∉ [Phase.idle, .done, .failed] →
      exec (.wr .flen v) s = .next (s.faulted .sequenceError 0 0 0x85600000).respondStatus) ∧
    (s.Inv → s.cfg.hasParser = false → s.status.fault = false →
      exec (.wr .flen v) s = .next { s with flen := v }.respondStatus)

/-- FCLR (R173): FAULT and the record are cleared, PHASE and all else kept; it is never rejected. -/
def Obligations.FclrClearsTheRecord : Prop :=
  ∀ s : State, encode .fclr = [0xF8000000] ∧
    (∀ w v, opcOf w = 0x3E → w ≠ 0xF8000000 →
      step (s.deliver w v) = .next ({ s with pend := none }.afterIllegal w)) ∧
    exec .fclr s = .next
      { s with record := ⟨.none, 0, 0, 0⟩, status := { s.status with fault := false } }.respondStatus

/-- SRST (R174, R220): every register as after reset, PEND empty, FILE kept, the response 0; it is never rejected. -/
def Obligations.SrstResets : Prop :=
  ∀ s : State, encode .srst = [0xFC000000] ∧
    (∀ w v, opcOf w = 0x3F → w ≠ 0xFC000000 →
      step (s.deliver w v) = .next ({ s with pend := none }.afterIllegal w)) ∧
    exec .srst s = .next
      { State.resetIn s.cfg with file := s.file, port := s.port, responses := s.responses ++ [0] }

/-- R220, R22: the reset values of all the registers, as RD reads them in the configuration of this hardware; PEND is empty. -/
def Obligations.ResetValues : Prop :=
  (Reg.all.take 31).map State.reset.readReg =
    [0xFFFFFFFF, 0, 0] ++ List.replicate 27 0 ++ [0xDF320101] ∧
  State.reset.pend = none ∧ State.reset.status.phase = .idle ∧
  ∀ c : Config, (State.resetIn c).readReg .res = 0xFFFFFFFF ^^^ c.xorWord ∧
    ∀ r ∈ Reg.all, r ∉ [Reg.acc, .res, .id] → (State.resetIn c).readReg r = 0

/-! ## STATUS, ID and FILE's byte order -/

/-- R29, R39, R49: the layout of STATUS, bit by bit, and the ten numbers of PHASE; without the parser its fields read 0. -/
def Obligations.StatusLayout : Prop :=
  ∀ s : State,
    let w := s.statusWord
    let p := s.cfg.hasParser
    w.getLsbD 0 = s.status.matched ∧ w.getLsbD 1 = s.status.checked ∧
    w.getLsbD 2 = (p && s.status.crcValid) ∧ w.getLsbD 3 = (p && s.status.warnCrc) ∧
    w.getLsbD 4 = (p && s.status.kind) ∧ w.getLsbD 5 = (p && s.status.outValid) ∧
    w.getLsbD 6 = (p && s.status.addrKnown) ∧ w.getLsbD 7 = s.status.fault ∧ w.getLsbD 8 = (p && s.status.peek) ∧
    (w.extractLsb' 9 3).toNat = 0 ∧
    (w.extractLsb' 12 4).toNat = (if p then
      (match s.status.phase with
        | .idle => 0
        | .suffix => 1
        | .sufcrc => 2
        | .dfusePrefix => 3
        | .plain => 4
        | .target => 5
        | .element => 6
        | .tclose => 7
        | .done => 8
        | .failed => 9) else 0) ∧
    (w.extractLsb' 16 16).toNat = 0

/-- R46: ID, field by field, and its value at the default parameters; it is read-only, and reset does not change it. -/
def Obligations.IdReportsTheParameters : Prop :=
  Config.default.idWord = 0xDF320101 ∧
  ∀ s : State, let w := s.readReg .id
    (w.extractLsb' 16 16).toNat = 0xDF32 ∧ (w.extractLsb' 11 5).toNat = 0 ∧
    w.getLsbD 10 = decide (s.cfg.nb = 1) ∧ w.getLsbD 9 = decide (s.cfg.xorWord = 0x00000000) ∧
    w.getLsbD 8 = s.cfg.hasParser ∧ (w.extractLsb' 0 8).toNat = 1 ∧
    (∀ v, exec (.wr .id v) s = .next (s.afterIllegal 0x87C00000)) ∧ s.hardReset.readReg .id = w

/-- R64: a field of n bytes, n at most 4, is their little-endian unsigned value. -/
def Obligations.FileFieldsAreLittleEndian : Prop :=
  ∀ (m : Memory) (a n : Nat), n ∈ [1, 2, 4] →
    (m.readLE a n).toNat = ((List.range n).map (fun i => (m.read (a + i)).toNat * 2 ^ (8 * i))).sum

/-! ## Frames -/

/-- The parts of the state that no command but those named with them writes: configuration, port, PEND, and every byte of FILE
(20_memory.md R61). -/
def SameHostSide (t s : State) : Prop :=
  t.cfg = s.cfg ∧ t.port = s.port ∧ t.pend = s.pend ∧ ∀ a, t.file.read a = s.file.read a

/-- The frame of NOP and the CRC.* commands (R104 to R111): only ACC, CNT, MATCH, CHECKED, the fault record (by CRC.RANGE) and the
response can change, each only by the commands named. -/
def Obligations.CrcFamilyFrame : Prop :=
  ∀ (d : Byte) (v : Word) (i : Instr) (s t : State),
    i ∈ [Instr.nop, .crcInit, .crcByte d, .crcWord v, .crcRange, .crcCheck, .crcLoad v, .crcResume v] →
    exec i s = .next t →
    SameHostSide t s ∧ t.flen = s.flen ∧ t.dfuse = s.dfuse ∧ t.suffix = s.suffix ∧ t.desc = s.desc ∧ t.walk = s.walk ∧
    t.crc.base = s.crc.base ∧ t.crc.len = s.crc.len ∧ t.crc.exp = s.crc.exp ∧
    t.status = { s.status with matched := t.status.matched, checked := t.status.checked, fault := t.status.fault } ∧
    (i ∉ [Instr.crcInit, .crcCheck] → t.status.matched = s.status.matched ∧ t.status.checked = s.status.checked) ∧
    (i ≠ .crcRange → t.record = s.record ∧ t.status.fault = s.status.fault) ∧
    (i ∈ [Instr.nop, .crcCheck] → t.crc = s.crc) ∧
    (i ∈ [Instr.crcLoad v, .crcResume v] → t.crc.cnt = s.crc.cnt)

/-- The frame of the PRS.* commands (R132 to R144): BASE, LEN, FLEN and PEEK (but by PRS.PEEK) are unchanged; PRS.START and PRS.PEEK leave the
CRC unit and, where they are legal, the fault record alone; PRS.PEEK writes only PEEK. -/
def Obligations.ParserFamilyFrame : Prop :=
  ∀ (i : Instr) (s t : State), i ∈ [Instr.prsStart, .prsStep, .prsNext, .prsRun, .prsPeek] → exec i s = .next t →
    SameHostSide t s ∧ t.flen = s.flen ∧ t.crc.base = s.crc.base ∧ t.crc.len = s.crc.len ∧
    (i ≠ .prsPeek → t.status.peek = s.status.peek) ∧
    (i ∈ [Instr.prsStart, .prsPeek] → t.crc = s.crc ∧ t.status.matched = s.status.matched ∧
      t.status.checked = s.status.checked ∧
      (s.cfg.hasParser = true → t.record = s.record ∧ t.status.fault = s.status.fault)) ∧
    (i = .prsPeek → t.dfuse = s.dfuse ∧ t.suffix = s.suffix ∧ t.desc = s.desc ∧ t.walk = s.walk ∧
      t.status = { s.status with peek := t.status.peek, fault := t.status.fault })

/-- The frame of RD, WR and FCLR (R170, R171, R173) where they are legal, and what SRST keeps (R174): a WR writes its register
alone, and FLEN's refusal only the fault record. -/
def Obligations.ControlFamilyFrame : Prop :=
  ∀ (r : Reg) (v : Word) (s t : State),
    (exec (.rd r) s = .next t → (Instr.rd r).legal s.cfg = true → t = { s with responses := t.responses }) ∧
    (exec (.wr r v) s = .next t → (Instr.wr r v).legal s.cfg = true →
      SameHostSide t s ∧ t.dfuse = s.dfuse ∧ t.suffix = s.suffix ∧ t.desc = s.desc ∧ t.walk = s.walk ∧
      t.status = { s.status with fault := t.status.fault } ∧
      (∀ q : Reg, q ∈ Reg.all → q ∉ [r, .res, .status, .ecode, .eoff, .eexp, .eact] → t.readReg q = s.readReg q) ∧
      (r ≠ .acc → t.readReg .res = s.readReg .res) ∧
      (r ≠ .flen → t.record = s.record ∧ t.status = s.status)) ∧
    (exec .fclr s = .next t → SameHostSide t s ∧ t.crc = s.crc ∧ t.flen = s.flen ∧ t.dfuse = s.dfuse ∧
      t.suffix = s.suffix ∧ t.desc = s.desc ∧ t.walk = s.walk ∧ t.status = { s.status with fault := false }) ∧
    (exec .srst s = .next t → t.cfg = s.cfg ∧ t.port = s.port ∧ ∀ a, t.file.read a = s.file.read a)

/-- R30 to R39, R52: each STATUS field changes only by the commands that write it. FAULT is set only by a raise (R37), and the record
says which: of an illegal command, of CRC.RANGE past FLEN, of WR FLEN in an active phase, of a PRS command in IDLE, or of a transition,
which leads to FAILED. -/
def Obligations.FlagsChangeOnlyByTheirWriters : Prop :=
  ∀ (i : Instr) (s t : State), exec i s = .next t →
    (i ∉ [Instr.crcInit, .crcCheck, .prsStep, .prsNext, .prsRun, .srst] →
      t.status.matched = s.status.matched ∧ t.status.checked = s.status.checked) ∧
    (i ∉ [Instr.prsStart, .prsStep, .prsNext, .prsRun, .srst] →
      t.status.crcValid = s.status.crcValid ∧ t.status.warnCrc = s.status.warnCrc ∧ t.status.kind = s.status.kind ∧
      t.status.outValid = s.status.outValid ∧ t.status.addrKnown = s.status.addrKnown ∧
      t.status.phase = s.status.phase) ∧
    (i ∉ [Instr.prsPeek, .srst] → t.status.peek = s.status.peek) ∧
    (i ∉ [Instr.fclr, .srst] → s.status.fault = true → t.status.fault = true) ∧
    (s.status.fault = false → t.status.fault = true →
      (i.legal s.cfg = false ∧ t.record = ⟨.illegalCommand, 0, 0, i.word0⟩) ∨
      (i = .crcRange ∧ s.crc.base.toNat + s.crc.len.toNat > s.flen.toNat ∧
        t.record = ⟨.rangeFault, s.crc.base, s.crc.len, s.flen⟩) ∨
      ((∃ v, i = .wr .flen v) ∧ s.status.phase ∉ [Phase.idle, .done, .failed] ∧
        t.record = ⟨.sequenceError, 0, 0, 0x85600000⟩) ∨
      (i ∈ [Instr.prsStep, .prsNext, .prsRun] ∧ s.status.phase = .idle ∧ t.record = ⟨.sequenceError, 0, 0, i.word0⟩) ∨
      (i ∈ [Instr.prsStep, .prsNext, .prsRun] ∧ s.status.phase ≠ .idle ∧ t.status.phase = .failed ∧
        t.record.code ∈ [FaultCode.truncatedFile, .badSignature, .badTargetSignature, .malformedPrefix, .truncatedTarget]))

/-- R23, R24, R26 to R28, R40 to R45, R47: each register that is storage changes only by the commands that write it, FILE and the
configuration by none; of the transitions, only SUFCRC writes the CRC unit. (STATUS: `FlagsChangeOnlyByTheirWriters`.) -/
def Obligations.RegistersChangeOnlyByTheirWriters : Prop :=
  ∀ (i : Instr) (s t : State), exec i s = .next t →
    t.cfg = s.cfg ∧ t.file = s.file ∧ t.port = s.port ∧
    ((∀ d, i ≠ .crcByte d) → (∀ v, i ≠ .crcWord v ∧ i ≠ .crcLoad v ∧ i ≠ .crcResume v ∧ i ≠ .wr .acc v) →
      i ∉ [Instr.crcInit, .crcRange, .prsStep, .prsNext, .prsRun, .srst] → t.crc.acc = s.crc.acc) ∧
    ((∀ d, i ≠ .crcByte d) → (∀ v, i ≠ .crcWord v ∧ i ≠ .wr .cnt v) →
      i ∉ [Instr.crcInit, .crcRange, .prsStep, .prsNext, .prsRun, .srst] → t.crc.cnt = s.crc.cnt) ∧
    (i = .prsStep → s.status.phase ≠ .sufcrc → t.crc = s.crc) ∧
    ((∀ v, i ≠ .wr .base v) → i ≠ .srst → t.crc.base = s.crc.base) ∧
    ((∀ v, i ≠ .wr .len v) → i ≠ .srst → t.crc.len = s.crc.len) ∧
    ((∀ v, i ≠ .wr .exp v) → i ∉ [Instr.prsStep, .prsNext, .prsRun, .srst] → t.crc.exp = s.crc.exp) ∧
    ((∀ v, i ≠ .wr .flen v) → i ≠ .srst → t.flen = s.flen) ∧
    (i ∉ [Instr.prsStart, .prsStep, .prsNext, .prsRun, .srst] →
      t.dfuse = s.dfuse ∧ t.suffix = s.suffix ∧ t.desc = s.desc ∧ t.walk = s.walk) ∧
    (i ∉ [Instr.fclr, .srst] → s.status.fault = t.status.fault → t.record = s.record)

/-! ## The invariant and the isolation of FILE -/

/-- The invariant holds at reset, in every configuration (R220, R146). -/
def Obligations.ResetMeetsTheInvariant : Prop := ∀ c : Config, (State.resetIn c).Inv

/-- R146, R31 to R35, R40, R47, R49, R50: from every state that meets the invariant, every step that answers a next state gives one
that meets it. -/
def Obligations.EveryStepKeepsTheInvariant : Prop :=
  ∀ s t : State, s.Inv → step s = .next t → t.Inv

/-- R62: no command's result depends on a FILE byte at or above FLEN: with any other FILE that agrees below FLEN the same command
leads to the same state but for FILE itself. -/
def Obligations.NothingDependsOnBytesPastFlen : Prop :=
  ∀ (i : Instr) (s t : State) (m : Memory), s.Inv → (∀ a, a < s.flen.toNat → m.read a = s.file.read a) →
    exec i s = .next t → exec i { s with file := m } = .next { t with file := m }
end

