-- ==== Sys2Proof/Laws/Memory.lean ====
section
/-!
SUPPORT. FILE: reading after a write, the canonical form, and what the readers of FILE depend on.
-/

namespace Sys2Proof.Machine

/-- A canonical list above `lo` lists no address below `lo`. -/
theorem Memory.read_below {m : Memory} {lo a : Nat} (h : m.wfFrom lo = true) (ha : a < lo) :
    m.read a = Memory.unlisted := by
  induction m generalizing lo with
  | nil => rfl
  | cons c rest ih =>
    obtain ⟨k, b⟩ := c
    simp only [Memory.wfFrom, Bool.and_eq_true, decide_eq_true_eq] at h
    have hk : k ≠ a := by omega
    simpa [Memory.read, hk] using ih h.2 (by omega)

/-- Reading after a write, in a canonical list. -/
theorem Memory.read_write {m : Memory} {lo a : Nat} (h : m.wfFrom lo = true) (b : Byte) (x : Nat) :
    (m.write a b).read x = if x = a then b else m.read x := by
  induction m generalizing lo with
  | nil => grind [Memory.write, Memory.read]
  | cons c rest ih =>
    obtain ⟨k, c⟩ := c
    simp only [Memory.wfFrom, Bool.and_eq_true, decide_eq_true_eq] at h
    have hr := ih h.2
    have hb : ∀ y, y < k + 1 → Memory.read rest y = Memory.unlisted := fun y hy => Memory.read_below h.2 hy
    grind [Memory.write, Memory.read]

/-- Reading the byte just written. -/
theorem Memory.read_write_same {m : Memory} (h : m.wf = true) (a : Nat) (b : Byte) : (m.write a b).read a = b := by
  simp [Memory.read_write h]

/-- Reading any other byte after a write. -/
theorem Memory.read_write_other {m : Memory} (h : m.wf = true) {a x : Nat} (hx : x ≠ a) (b : Byte) :
    (m.write a b).read x = m.read x := by
  simp [Memory.read_write h, hx]

theorem Memory.write_wfFrom {m : Memory} {lo a : Nat} (h : m.wfFrom lo = true) (hlo : lo ≤ a) (ha : a < 2 ^ 32)
    (b : Byte) : (m.write a b).wfFrom lo = true := by
  induction m generalizing lo with
  | nil => unfold Memory.write; split <;> simp_all [Memory.wfFrom]
  | cons c rest ih =>
    obtain ⟨k, c⟩ := c
    simp only [Memory.wfFrom, Bool.and_eq_true, decide_eq_true_eq] at h
    unfold Memory.write
    split
    · split <;> simp_all [Memory.wfFrom]
    · split
      · subst a
        split
        · have weaken : ∀ (m : Memory) (l l' : Nat), l' ≤ l → m.wfFrom l = true → m.wfFrom l' = true := by
            intro m l l' hl hm
            cases m with
            | nil => rfl
            | cons c r => simp_all [Memory.wfFrom]; omega
          exact weaken rest (k + 1) lo (by omega) h.2
        · simp_all [Memory.wfFrom]
      · simp only [Memory.wfFrom, Bool.and_eq_true, decide_eq_true_eq]
        exact ⟨h.1, ih h.2 (by omega)⟩

/-- The one operation that writes FILE keeps the canonical form. -/
theorem Memory.write_wf {m : Memory} (h : m.wf = true) {a : Nat} (ha : a < 2 ^ 32) (b : Byte) :
    (m.write a b).wf = true :=
  Memory.write_wfFrom h (Nat.zero_le a) ha b

theorem reset_file_wf : State.reset.file.wf = true := rfl

/-- `mismatch` is `none` exactly where the bytes are the string. -/
theorem Memory.mismatch_none (m : Memory) (a : Nat) (bs : List Byte) :
    m.mismatch a bs = none ↔ (List.range' a bs.length).map m.read = bs := by
  induction bs generalizing a with
  | nil => simp [Memory.mismatch]
  | cons b bs ih =>
    unfold Memory.mismatch
    split <;> simp_all [List.range'_succ]

/-- `absorb` is `crcFold` of the bytes read in rising order. -/
theorem Memory.absorb_eq (m : Memory) (a n : Nat) (acc : Word) :
    m.absorb a n acc = crcFold acc ((List.range' a n).map m.read) := by
  induction n generalizing a acc with
  | zero => rfl
  | succ n ih => simp [Memory.absorb, ih, crcFold, List.range'_succ]

end Sys2Proof.Machine
end

