-- ==== Sys2Proof/Laws/State.lean ====
section
/-!
SUPPORT. One lemma per field per update of the state: what the named updates leave and set. Tagged `simp`, so that no later
proof unfolds an update.
-/

namespace Sys2Proof.Machine

variable (s : State)


/-! ## `setPhase` -/

@[simp] theorem setPhase_cfg (p : Phase) : (s.setPhase p).cfg = s.cfg := rfl
@[simp] theorem setPhase_crc (p : Phase) : (s.setPhase p).crc = s.crc := rfl
@[simp] theorem setPhase_record (p : Phase) : (s.setPhase p).record = s.record := rfl
@[simp] theorem setPhase_flen (p : Phase) : (s.setPhase p).flen = s.flen := rfl
@[simp] theorem setPhase_dfuse (p : Phase) : (s.setPhase p).dfuse = s.dfuse := rfl
@[simp] theorem setPhase_suffix (p : Phase) : (s.setPhase p).suffix = s.suffix := rfl
@[simp] theorem setPhase_desc (p : Phase) : (s.setPhase p).desc = s.desc := rfl
@[simp] theorem setPhase_walk (p : Phase) : (s.setPhase p).walk = s.walk := rfl
@[simp] theorem setPhase_pend (p : Phase) : (s.setPhase p).pend = s.pend := rfl
@[simp] theorem setPhase_file (p : Phase) : (s.setPhase p).file = s.file := rfl
@[simp] theorem setPhase_port (p : Phase) : (s.setPhase p).port = s.port := rfl
@[simp] theorem setPhase_responses (p : Phase) : (s.setPhase p).responses = s.responses := rfl
@[simp] theorem setPhase_status_matched (p : Phase) : (s.setPhase p).status.matched = s.status.matched := rfl
@[simp] theorem setPhase_status_checked (p : Phase) : (s.setPhase p).status.checked = s.status.checked := rfl
@[simp] theorem setPhase_status_crcValid (p : Phase) : (s.setPhase p).status.crcValid = s.status.crcValid := rfl
@[simp] theorem setPhase_status_warnCrc (p : Phase) : (s.setPhase p).status.warnCrc = s.status.warnCrc := rfl
@[simp] theorem setPhase_status_kind (p : Phase) : (s.setPhase p).status.kind = s.status.kind := rfl
@[simp] theorem setPhase_status_outValid (p : Phase) : (s.setPhase p).status.outValid = s.status.outValid := rfl
@[simp] theorem setPhase_status_addrKnown (p : Phase) : (s.setPhase p).status.addrKnown = s.status.addrKnown := rfl
@[simp] theorem setPhase_status_fault (p : Phase) : (s.setPhase p).status.fault = s.status.fault := rfl
@[simp] theorem setPhase_status_peek (p : Phase) : (s.setPhase p).status.peek = s.status.peek := rfl
@[simp] theorem setPhase_status_phase (p : Phase) : (s.setPhase p).status.phase = p := rfl

/-! ## `respond` and `respondStatus` -/

@[simp] theorem respond_cfg (v : Word) : (s.respond v).cfg = s.cfg := rfl
@[simp] theorem respond_crc (v : Word) : (s.respond v).crc = s.crc := rfl
@[simp] theorem respond_status (v : Word) : (s.respond v).status = s.status := rfl
@[simp] theorem respond_record (v : Word) : (s.respond v).record = s.record := rfl
@[simp] theorem respond_flen (v : Word) : (s.respond v).flen = s.flen := rfl
@[simp] theorem respond_dfuse (v : Word) : (s.respond v).dfuse = s.dfuse := rfl
@[simp] theorem respond_suffix (v : Word) : (s.respond v).suffix = s.suffix := rfl
@[simp] theorem respond_desc (v : Word) : (s.respond v).desc = s.desc := rfl
@[simp] theorem respond_walk (v : Word) : (s.respond v).walk = s.walk := rfl
@[simp] theorem respond_pend (v : Word) : (s.respond v).pend = s.pend := rfl
@[simp] theorem respond_file (v : Word) : (s.respond v).file = s.file := rfl
@[simp] theorem respond_port (v : Word) : (s.respond v).port = s.port := rfl
@[simp] theorem respond_responses (v : Word) : (s.respond v).responses = s.responses ++ [v] := rfl
@[simp] theorem respondStatus_cfg : s.respondStatus.cfg = s.cfg := rfl
@[simp] theorem respondStatus_crc : s.respondStatus.crc = s.crc := rfl
@[simp] theorem respondStatus_status : s.respondStatus.status = s.status := rfl
@[simp] theorem respondStatus_record : s.respondStatus.record = s.record := rfl
@[simp] theorem respondStatus_flen : s.respondStatus.flen = s.flen := rfl
@[simp] theorem respondStatus_dfuse : s.respondStatus.dfuse = s.dfuse := rfl
@[simp] theorem respondStatus_suffix : s.respondStatus.suffix = s.suffix := rfl
@[simp] theorem respondStatus_desc : s.respondStatus.desc = s.desc := rfl
@[simp] theorem respondStatus_walk : s.respondStatus.walk = s.walk := rfl
@[simp] theorem respondStatus_pend : s.respondStatus.pend = s.pend := rfl
@[simp] theorem respondStatus_file : s.respondStatus.file = s.file := rfl
@[simp] theorem respondStatus_port : s.respondStatus.port = s.port := rfl
@[simp] theorem respondStatus_responses : s.respondStatus.responses = s.responses ++ [s.statusWord] := rfl
@[simp] theorem respond_statusWord (v : Word) : (s.respond v).statusWord = s.statusWord := rfl

/-! ## `clearFault` -/

@[simp] theorem clearFault_cfg : (clearFault s).cfg = s.cfg := rfl
@[simp] theorem clearFault_crc : (clearFault s).crc = s.crc := rfl
@[simp] theorem clearFault_flen : (clearFault s).flen = s.flen := rfl
@[simp] theorem clearFault_dfuse : (clearFault s).dfuse = s.dfuse := rfl
@[simp] theorem clearFault_suffix : (clearFault s).suffix = s.suffix := rfl
@[simp] theorem clearFault_desc : (clearFault s).desc = s.desc := rfl
@[simp] theorem clearFault_walk : (clearFault s).walk = s.walk := rfl
@[simp] theorem clearFault_pend : (clearFault s).pend = s.pend := rfl
@[simp] theorem clearFault_file : (clearFault s).file = s.file := rfl
@[simp] theorem clearFault_port : (clearFault s).port = s.port := rfl
@[simp] theorem clearFault_responses : (clearFault s).responses = s.responses := rfl
@[simp] theorem clearFault_record : (clearFault s).record = { code := .none, off := 0, exp := 0, act := 0 } := rfl
@[simp] theorem clearFault_status_matched : (clearFault s).status.matched = s.status.matched := rfl
@[simp] theorem clearFault_status_checked : (clearFault s).status.checked = s.status.checked := rfl
@[simp] theorem clearFault_status_crcValid : (clearFault s).status.crcValid = s.status.crcValid := rfl
@[simp] theorem clearFault_status_warnCrc : (clearFault s).status.warnCrc = s.status.warnCrc := rfl
@[simp] theorem clearFault_status_kind : (clearFault s).status.kind = s.status.kind := rfl
@[simp] theorem clearFault_status_outValid : (clearFault s).status.outValid = s.status.outValid := rfl
@[simp] theorem clearFault_status_addrKnown : (clearFault s).status.addrKnown = s.status.addrKnown := rfl
@[simp] theorem clearFault_status_fault : (clearFault s).status.fault = false := rfl
@[simp] theorem clearFault_status_peek : (clearFault s).status.peek = s.status.peek := rfl
@[simp] theorem clearFault_status_phase : (clearFault s).status.phase = s.status.phase := rfl

/-! ## `hardReset` -/

@[simp] theorem hardReset_cfg : s.hardReset.cfg = s.cfg := rfl
@[simp] theorem hardReset_crc : s.hardReset.crc = (State.resetIn s.cfg).crc := rfl
@[simp] theorem hardReset_status : s.hardReset.status = (State.resetIn s.cfg).status := rfl
@[simp] theorem hardReset_record : s.hardReset.record = (State.resetIn s.cfg).record := rfl
@[simp] theorem hardReset_flen : s.hardReset.flen = (State.resetIn s.cfg).flen := rfl
@[simp] theorem hardReset_dfuse : s.hardReset.dfuse = (State.resetIn s.cfg).dfuse := rfl
@[simp] theorem hardReset_suffix : s.hardReset.suffix = (State.resetIn s.cfg).suffix := rfl
@[simp] theorem hardReset_desc : s.hardReset.desc = (State.resetIn s.cfg).desc := rfl
@[simp] theorem hardReset_walk : s.hardReset.walk = (State.resetIn s.cfg).walk := rfl
@[simp] theorem hardReset_pend : s.hardReset.pend = (State.resetIn s.cfg).pend := rfl
@[simp] theorem hardReset_file : s.hardReset.file = s.file := rfl
@[simp] theorem hardReset_port : s.hardReset.port = s.port := rfl
@[simp] theorem hardReset_responses : s.hardReset.responses = s.responses := rfl

/-! ## `raise` and `fail` -/

section
variable (e : FaultCode) (off exp act : Word)

@[simp] theorem raise_cfg : (raise e off exp act s).cfg = s.cfg := by
  unfold raise; split <;> rfl
@[simp] theorem raise_crc : (raise e off exp act s).crc = s.crc := by
  unfold raise; split <;> rfl
@[simp] theorem raise_flen : (raise e off exp act s).flen = s.flen := by
  unfold raise; split <;> rfl
@[simp] theorem raise_dfuse : (raise e off exp act s).dfuse = s.dfuse := by
  unfold raise; split <;> rfl
@[simp] theorem raise_suffix : (raise e off exp act s).suffix = s.suffix := by
  unfold raise; split <;> rfl
@[simp] theorem raise_desc : (raise e off exp act s).desc = s.desc := by
  unfold raise; split <;> rfl
@[simp] theorem raise_walk : (raise e off exp act s).walk = s.walk := by
  unfold raise; split <;> rfl
@[simp] theorem raise_pend : (raise e off exp act s).pend = s.pend := by
  unfold raise; split <;> rfl
@[simp] theorem raise_file : (raise e off exp act s).file = s.file := by
  unfold raise; split <;> rfl
@[simp] theorem raise_port : (raise e off exp act s).port = s.port := by
  unfold raise; split <;> rfl
@[simp] theorem raise_responses : (raise e off exp act s).responses = s.responses := by
  unfold raise; split <;> rfl
@[simp] theorem raise_status_matched : (raise e off exp act s).status.matched = s.status.matched := by
  unfold raise; split <;> rfl
@[simp] theorem raise_status_checked : (raise e off exp act s).status.checked = s.status.checked := by
  unfold raise; split <;> rfl
@[simp] theorem raise_status_crcValid : (raise e off exp act s).status.crcValid = s.status.crcValid := by
  unfold raise; split <;> rfl
@[simp] theorem raise_status_warnCrc : (raise e off exp act s).status.warnCrc = s.status.warnCrc := by
  unfold raise; split <;> rfl
@[simp] theorem raise_status_kind : (raise e off exp act s).status.kind = s.status.kind := by
  unfold raise; split <;> rfl
@[simp] theorem raise_status_outValid : (raise e off exp act s).status.outValid = s.status.outValid := by
  unfold raise; split <;> rfl
@[simp] theorem raise_status_addrKnown : (raise e off exp act s).status.addrKnown = s.status.addrKnown := by
  unfold raise; split <;> rfl
@[simp] theorem raise_status_fault : (raise e off exp act s).status.fault = true := by
  unfold raise; split <;> simp_all
@[simp] theorem raise_status_peek : (raise e off exp act s).status.peek = s.status.peek := by
  unfold raise; split <;> rfl
@[simp] theorem raise_status_phase : (raise e off exp act s).status.phase = s.status.phase := by
  unfold raise; split <;> rfl
@[simp] theorem fail_cfg : (fail e off exp act s).cfg = s.cfg := by simp [fail]
@[simp] theorem fail_crc : (fail e off exp act s).crc = s.crc := by simp [fail]
@[simp] theorem fail_flen : (fail e off exp act s).flen = s.flen := by simp [fail]
@[simp] theorem fail_dfuse : (fail e off exp act s).dfuse = s.dfuse := by simp [fail]
@[simp] theorem fail_suffix : (fail e off exp act s).suffix = s.suffix := by simp [fail]
@[simp] theorem fail_desc : (fail e off exp act s).desc = s.desc := by simp [fail]
@[simp] theorem fail_walk : (fail e off exp act s).walk = s.walk := by simp [fail]
@[simp] theorem fail_pend : (fail e off exp act s).pend = s.pend := by simp [fail]
@[simp] theorem fail_file : (fail e off exp act s).file = s.file := by simp [fail]
@[simp] theorem fail_port : (fail e off exp act s).port = s.port := by simp [fail]
@[simp] theorem fail_responses : (fail e off exp act s).responses = s.responses := by simp [fail]
@[simp] theorem fail_record : (fail e off exp act s).record = (raise e off exp act s).record := rfl
@[simp] theorem fail_status_matched : (fail e off exp act s).status.matched = s.status.matched := by simp [fail]
@[simp] theorem fail_status_checked : (fail e off exp act s).status.checked = s.status.checked := by simp [fail]
@[simp] theorem fail_status_crcValid : (fail e off exp act s).status.crcValid = s.status.crcValid := by simp [fail]
@[simp] theorem fail_status_warnCrc : (fail e off exp act s).status.warnCrc = s.status.warnCrc := by simp [fail]
@[simp] theorem fail_status_kind : (fail e off exp act s).status.kind = s.status.kind := by simp [fail]
@[simp] theorem fail_status_outValid : (fail e off exp act s).status.outValid = s.status.outValid := by simp [fail]
@[simp] theorem fail_status_addrKnown : (fail e off exp act s).status.addrKnown = s.status.addrKnown := by simp [fail]
@[simp] theorem fail_status_fault : (fail e off exp act s).status.fault = true := by simp [fail]
@[simp] theorem fail_status_peek : (fail e off exp act s).status.peek = s.status.peek := by simp [fail]
@[simp] theorem fail_status_phase : (fail e off exp act s).status.phase = .failed := by simp [fail]

end

/-! ## `absorbBytes` -/

@[simp] theorem absorbBytes_cfg (b : List Byte) : (absorbBytes b s).cfg = s.cfg := rfl
@[simp] theorem absorbBytes_status (b : List Byte) : (absorbBytes b s).status = s.status := rfl
@[simp] theorem absorbBytes_record (b : List Byte) : (absorbBytes b s).record = s.record := rfl
@[simp] theorem absorbBytes_flen (b : List Byte) : (absorbBytes b s).flen = s.flen := rfl
@[simp] theorem absorbBytes_dfuse (b : List Byte) : (absorbBytes b s).dfuse = s.dfuse := rfl
@[simp] theorem absorbBytes_suffix (b : List Byte) : (absorbBytes b s).suffix = s.suffix := rfl
@[simp] theorem absorbBytes_desc (b : List Byte) : (absorbBytes b s).desc = s.desc := rfl
@[simp] theorem absorbBytes_walk (b : List Byte) : (absorbBytes b s).walk = s.walk := rfl
@[simp] theorem absorbBytes_pend (b : List Byte) : (absorbBytes b s).pend = s.pend := rfl
@[simp] theorem absorbBytes_file (b : List Byte) : (absorbBytes b s).file = s.file := rfl
@[simp] theorem absorbBytes_port (b : List Byte) : (absorbBytes b s).port = s.port := rfl
@[simp] theorem absorbBytes_responses (b : List Byte) : (absorbBytes b s).responses = s.responses := rfl
@[simp] theorem absorbBytes_crc_acc (b : List Byte) : (absorbBytes b s).crc.acc = crcFold s.crc.acc b := rfl
@[simp] theorem absorbBytes_crc_cnt (b : List Byte) : (absorbBytes b s).crc.cnt = s.crc.cnt + BitVec.ofNat 32 b.length := rfl
@[simp] theorem absorbBytes_crc_base (b : List Byte) : (absorbBytes b s).crc.base = s.crc.base := rfl
@[simp] theorem absorbBytes_crc_len (b : List Byte) : (absorbBytes b s).crc.len = s.crc.len := rfl
@[simp] theorem absorbBytes_crc_exp (b : List Byte) : (absorbBytes b s).crc.exp = s.crc.exp := rfl

/-! ## `writeReg` -/

@[simp] theorem writeReg_cfg (r : Reg) (v : Word) : (s.writeReg r v).cfg = s.cfg := by cases r <;> rfl
@[simp] theorem writeReg_status (r : Reg) (v : Word) : (s.writeReg r v).status = s.status := by cases r <;> rfl
@[simp] theorem writeReg_record (r : Reg) (v : Word) : (s.writeReg r v).record = s.record := by cases r <;> rfl
@[simp] theorem writeReg_dfuse (r : Reg) (v : Word) : (s.writeReg r v).dfuse = s.dfuse := by cases r <;> rfl
@[simp] theorem writeReg_suffix (r : Reg) (v : Word) : (s.writeReg r v).suffix = s.suffix := by cases r <;> rfl
@[simp] theorem writeReg_desc (r : Reg) (v : Word) : (s.writeReg r v).desc = s.desc := by cases r <;> rfl
@[simp] theorem writeReg_walk (r : Reg) (v : Word) : (s.writeReg r v).walk = s.walk := by cases r <;> rfl
@[simp] theorem writeReg_pend (r : Reg) (v : Word) : (s.writeReg r v).pend = s.pend := by cases r <;> rfl
@[simp] theorem writeReg_file (r : Reg) (v : Word) : (s.writeReg r v).file = s.file := by cases r <;> rfl
@[simp] theorem writeReg_port (r : Reg) (v : Word) : (s.writeReg r v).port = s.port := by cases r <;> rfl
@[simp] theorem writeReg_responses (r : Reg) (v : Word) : (s.writeReg r v).responses = s.responses := by cases r <;> rfl

end Sys2Proof.Machine
end

