-- ==== Sys2Proof/Laws/Ops.lean ====
section
/-!
SUPPORT. One lemma for each shared operation that says once everything it can do: raising, a command's execution, taking a move,
and the FSM's loops.
-/

namespace Sys2Proof.Machine

/-! ## Raising -/

/-- The first fault wins (60_exceptions.md R193). -/
theorem raise_of_fault {s : State} (h : s.status.fault = true) (e : FaultCode) (off exp act : Word) :
    raise e off exp act s = s := by
  simp [raise, h]

/-- A raise with no fault recorded records this one (R193). -/
theorem raise_record {s : State} (h : s.status.fault = false) (e : FaultCode) (off exp act : Word) :
    (raise e off exp act s).record = { code := e, off := off, exp := exp, act := act } := by
  simp [raise, h]

/-! ## Exact arithmetic -/

/-- An exact natural number is stored modulo 2^32. -/
theorem narrow_natCast (n : Nat) : narrow (n : Int) = BitVec.ofNat 32 n := by
  simp [narrow]

/-- An exact difference that is not negative is stored as the natural difference. -/
theorem narrow_sub {a b : Nat} (h : b ≤ a) : narrow ((a : Int) - b) = BitVec.ofNat 32 (a - b) := by
  rw [← Int.ofNat_sub h]; exact narrow_natCast _

/-! ## The CRC arithmetic -/

/-- The machine's byte update is the loop of R100 as the claims write it. -/
theorem step8_eq_byteUpdate (acc : Word) (d : Byte) : step8 acc d = byteUpdate acc d := rfl

/-- The machine's fold is that of the claims (R102). -/
theorem crcFold_eq_absorbed (acc : Word) (b : List Byte) : crcFold acc b = absorbed acc b := rfl

theorem absorbed_append (acc : Word) (a b : List Byte) : absorbed acc (a ++ b) = absorbed (absorbed acc a) b := by
  simp [absorbed]

/-! ## Sequences of commands -/

theorem execAll_cons {i : Instr} {s t : State} (h : exec i s = .next t) (is : List Instr) :
    execAll (i :: is) s = execAll is t := by
  simp [execAll, h]

/-! ## A command's execution -/

/-- What a legal command that is not rejected does to the registers. -/
def ruleOf : Instr → State → State
  | .nop, s => s
  | .crcInit, s => crcInitRule s
  | .crcByte d, s => absorbBytes [d] s
  | .crcWord v, s => absorbBytes (wordBytes v) s
  | .crcRange, s => crcRangeRule s
  | .crcCheck, s => crcCheckRule s
  | .crcLoad v, s => crcLoadRule v s
  | .crcResume v, s => crcLoadRule (v ^^^ s.cfg.xorWord) s
  | .prsStart, s => prsStartRule s
  | .prsStep, s => inParse .prsStep transition s
  | .prsNext, s => inParse .prsNext (transitionsUntil nextStop transitionLimit) s
  | .prsRun, s => inParse .prsRun (transitionsUntil runStop transitionLimit) s
  | .prsPeek, s => prsPeekRule s
  | .rd _, s => s
  | .wr r v, s => wrRule r v s
  | .fclr, s => clearFault s
  | .srst, s => s.hardReset

/-- What a legal command that is not rejected responds with, in the state after its rule. -/
def answerOf : Instr → State → Word
  | .rd r, s => s.readReg r
  | .nop, s | .crcInit, s | .crcByte _, s | .crcWord _, s | .crcRange, s | .crcCheck, s | .crcLoad _, s
  | .crcResume _, s | .prsStart, s | .prsStep, s | .prsNext, s | .prsRun, s | .prsPeek, s | .wr _ _, s | .fclr, s
  | .srst, s => s.statusWord

/-- Every command is `runCommand` around its own rule (30_encoding.md R87). -/
theorem exec_eq_runCommand (i : Instr) (s : State) : exec i s = runCommand i (ruleOf i) (answerOf i) s := by
  cases i <;> rfl

theorem runCommand_illegal {i : Instr} {s : State} (h : i.legal s.cfg = false) (body : State → State)
    (answer : State → Word) : runCommand i body answer s = .next (illegalCommand i.word0 s) := by
  simp [runCommand, h]

theorem runCommand_rejected {i : Instr} {s : State} (h : i.legal s.cfg = true) (hf : s.status.fault = true)
    (hr : runsInFault i = false) (body : State → State) (answer : State → Word) :
    runCommand i body answer s = .next s.respondStatus := by
  simp [runCommand, h, hf, hr]

theorem runCommand_performs {i : Instr} {s : State} (h : i.legal s.cfg = true)
    (hf : s.status.fault = false ∨ runsInFault i = true) (body : State → State) (answer : State → Word) :
    runCommand i body answer s = .next ((body s).respond (answer (body s))) := by
  rcases hf with hf | hf <;> simp [runCommand, h, hf]

/-- Everything a command can do: raise IllegalCommand, be rejected, or perform its rule; each time it answers a next
state. -/
theorem exec_cases (i : Instr) (s : State) :
    (i.legal s.cfg = false ∧ exec i s = .next (illegalCommand i.word0 s)) ∨
    (i.legal s.cfg = true ∧ s.status.fault = true ∧ runsInFault i = false ∧ exec i s = .next s.respondStatus) ∨
    (i.legal s.cfg = true ∧ (s.status.fault = false ∨ runsInFault i = true) ∧
      exec i s = .next ((ruleOf i s).respond (answerOf i (ruleOf i s)))) := by
  rw [exec_eq_runCommand]
  cases hl : i.legal s.cfg
  · exact .inl ⟨rfl, runCommand_illegal hl _ _⟩
  · cases hf : s.status.fault
    · exact .inr (.inr ⟨rfl, .inl rfl, runCommand_performs hl (.inl hf) _ _⟩)
    · cases hr : runsInFault i
      · exact .inr (.inl ⟨rfl, rfl, rfl, runCommand_rejected hl hf hr _ _⟩)
      · exact .inr (.inr ⟨rfl, .inr rfl, runCommand_performs hl (.inr hr) _ _⟩)

/-! ## Taking a move -/

theorem takeMove_idle {s : State} (h : s.port = []) : takeMove s = .settled (.next s) := by
  simp [takeMove, h]

theorem takeMove_word {s : State} {w : Word} {rest : List HostMove} (h : s.port = .word w :: rest) :
    takeMove s = onWord w { s with port := rest } := by
  simp [takeMove, h]

/-- Everything a delivered word can do (R82, R87). -/
theorem onWord_cases (w : Word) (s : State) :
    (∃ w0, s.pend = some w0 ∧ onWord w s = execute w0 w { s with pend := none }) ∨
    (s.pend = none ∧ isTwoWord w = true ∧ onWord w s = .settled (.next { s with pend := some w })) ∨
    (s.pend = none ∧ isTwoWord w = false ∧ onWord w s = execute w 0 s) := by
  unfold onWord
  cases hp : s.pend
  · cases hw : isTwoWord w <;> simp
  · simp

/-- Everything `execute` can lead to (R85, R87). -/
theorem execute_cases (w0 v : Word) (s : State) :
    (∃ i, decodeWords w0 v = .ok i ∧ execute w0 v s = .run i s) ∨
    (∃ e, decodeWords w0 v = .error e ∧ execute w0 v s = .settled (.next (illegalCommand w0 s))) := by
  unfold execute
  cases hd : decodeWords w0 v <;> simp

/-! ## The FSM's loops -/

/-- What one transition keeps, any number of them keeps. -/
theorem transitionsUntil_keeps {P : State → Prop} (h : ∀ s, P s → P (transition s)) (stop : State → Bool) (n : Nat)
    (s : State) (hs : P s) : P (transitionsUntil stop n s) := by
  induction n generalizing s with
  | zero => exact hs
  | succ n ih =>
    unfold transitionsUntil
    split
    · exact h s hs
    · exact ih _ (h s hs)

/-- The parts of the state that are neither the parser's nor the CRC unit's nor the fault record are the same. -/
def SameOutside (t s : State) : Prop :=
  t.cfg = s.cfg ∧ t.flen = s.flen ∧ t.file = s.file ∧ t.pend = s.pend ∧ t.port = s.port ∧ t.responses = s.responses

theorem transSuffix_outside (s : State) : SameOutside (transSuffix s) s := by
  unfold transSuffix
  dsimp only
  split
  · simp [SameOutside]
  · split <;> simp [SameOutside]

theorem transPrefix_outside (s : State) : SameOutside (transPrefix s) s := by
  unfold transPrefix
  dsimp only
  repeat' split
  all_goals simp [SameOutside]

theorem targetSpan_outside (b : Nat) (h : TargetHdr) (s : State) : SameOutside (targetSpan b h s) s := by
  unfold targetSpan
  split <;> simp [SameOutside, targetEnter, targetLatch]

theorem transTarget_outside (s : State) : SameOutside (transTarget s) s := by
  unfold transTarget
  dsimp only
  split
  · simp [SameOutside]
  · split
    · simp [SameOutside]
    · exact targetSpan_outside _ _ _

theorem transElement_outside (s : State) : SameOutside (transElement s) s := by
  unfold transElement
  dsimp only
  repeat' split
  all_goals simp [SameOutside]

theorem transTclose_outside (s : State) : SameOutside (transTclose s) s := by
  unfold transTclose
  split <;> simp [SameOutside]

/-- A transition leaves alone what is not the parser's or the CRC unit's. -/
theorem transition_outside (s : State) : SameOutside (transition s) s := by
  unfold transition
  dsimp only
  cases s.status.phase
  · exact ⟨rfl, rfl, rfl, rfl, rfl, rfl⟩
  · exact transSuffix_outside _
  · exact ⟨rfl, rfl, rfl, rfl, rfl, rfl⟩
  · exact transPrefix_outside _
  · exact ⟨rfl, rfl, rfl, rfl, rfl, rfl⟩
  · exact transTarget_outside _
  · exact transElement_outside _
  · exact transTclose_outside _
  · exact ⟨rfl, rfl, rfl, rfl, rfl, rfl⟩
  · exact ⟨rfl, rfl, rfl, rfl, rfl, rfl⟩

end Sys2Proof.Machine
end

