-- ==== Sys2Proof/Laws/PerInstr.lean ====
section
/-!
SUPPORT. Statements made per instruction. `EncodeLength`: a command's encoding has the number of words its OPC says (30_encoding.md
R81, R82).
-/

namespace Sys2Proof.Laws.EncodeLength

/-- The encoding of `i` has two words exactly if the OPC of its first word is a two-word OPC. -/
def Statement (i : Instr) : Prop := (encode i).length = if isTwoWord i.word0 then 2 else 1

/-- The length is decided by OPC, whatever the fields REG and IMM8 hold (R82). -/
theorem isTwoWord_packWord (opc : BitVec 6) (reg : BitVec 5) (imm8 : Byte) :
    isTwoWord (packWord opc reg imm8) = (opc == 0x03 || opc == 0x06 || opc == 0x07 || opc == 0x21) := by
  have h : opcOf (packWord opc reg imm8) = opc := by
    apply BitVec.eq_of_getLsbD_eq
    intro i hi
    simp only [opcOf, packWord, BitVec.getLsbD_extractLsb', BitVec.getLsbD_append]
    have h1 : ¬ (26 + i < 8) := by omega
    have h2 : ¬ (26 + i - 8 < 13) := by omega
    have h3 : ¬ (26 + i - 8 - 13 < 5) := by omega
    have h4 : 26 + i - 8 - 13 - 5 = i := by omega
    simp [hi, h1, h2, h3, h4]
  simp [isTwoWord, h]

theorem nop : Statement .nop := by simp [Statement, encode, Instr.word0, Instr.word1, isTwoWord_packWord]

theorem crcInit : Statement .crcInit := by simp [Statement, encode, Instr.word0, Instr.word1, isTwoWord_packWord]

theorem crcByte (d : Byte) : Statement (.crcByte d) := by simp [Statement, encode, Instr.word0, Instr.word1, isTwoWord_packWord]

theorem crcWord (v : Word) : Statement (.crcWord v) := by simp [Statement, encode, Instr.word0, Instr.word1, isTwoWord_packWord]

theorem crcRange : Statement .crcRange := by simp [Statement, encode, Instr.word0, Instr.word1, isTwoWord_packWord]

theorem crcCheck : Statement .crcCheck := by simp [Statement, encode, Instr.word0, Instr.word1, isTwoWord_packWord]

theorem crcLoad (v : Word) : Statement (.crcLoad v) := by simp [Statement, encode, Instr.word0, Instr.word1, isTwoWord_packWord]

theorem crcResume (v : Word) : Statement (.crcResume v) := by simp [Statement, encode, Instr.word0, Instr.word1, isTwoWord_packWord]

theorem prsStart : Statement .prsStart := by simp [Statement, encode, Instr.word0, Instr.word1, isTwoWord_packWord]

theorem prsStep : Statement .prsStep := by simp [Statement, encode, Instr.word0, Instr.word1, isTwoWord_packWord]

theorem prsNext : Statement .prsNext := by simp [Statement, encode, Instr.word0, Instr.word1, isTwoWord_packWord]

theorem prsRun : Statement .prsRun := by simp [Statement, encode, Instr.word0, Instr.word1, isTwoWord_packWord]

theorem prsPeek : Statement .prsPeek := by simp [Statement, encode, Instr.word0, Instr.word1, isTwoWord_packWord]

theorem rd (r : Reg) : Statement (.rd r) := by simp [Statement, encode, Instr.word0, Instr.word1, isTwoWord_packWord]

theorem wr (r : Reg) (v : Word) : Statement (.wr r v) := by simp [Statement, encode, Instr.word0, Instr.word1, isTwoWord_packWord]

theorem fclr : Statement .fclr := by simp [Statement, encode, Instr.word0, Instr.word1, isTwoWord_packWord]

theorem srst : Statement .srst := by simp [Statement, encode, Instr.word0, Instr.word1, isTwoWord_packWord]

end Sys2Proof.Laws.EncodeLength
end

