-- ==== Sys2Proof/Tests/Slice0.lean ====
section
/-!
SUPPORT. The model's own tests, each about one command or one step on a small state. Expected values are those of 95_test_vectors.md
or are worked out by hand from the rule named. The theorems named `witness_` show states and operands that meet the hypotheses of an
obligation, clause by clause; they prove none.
-/

namespace Sys2Proof.Tests

set_option synthInstance.maxSize 4096

open Sys2Proof.Machine

/-! ## Helpers -/

/-- A memory holding these bytes from address `a` on, a zero byte being unlisted. -/
def place (a : Nat) : List Byte → Memory
  | [] => []
  | b :: bs => if b = 0 then place (a + 1) bs else (a, b) :: place (a + 1) bs

/-- The standard suffix of 95_test_vectors.md at `a`, with this dwCRC after it. -/
def suffixBytes (a : Nat) (crc : List Byte) : Memory :=
  place a ([0x00, 0x00, 0x11, 0xDF, 0x83, 0x04, 0x1A, 0x01, 0x55, 0x46, 0x44, 0x10] ++ crc)

/-- "123456789". -/
def digitsFile : Memory := place 0 [0x31, 0x32, 0x33, 0x34, 0x35, 0x36, 0x37, 0x38, 0x39]

/-- V-PRS-03, 21 bytes: "hello" plain. -/
def helloFile : Memory := place 0 [0x68, 0x65, 0x6C, 0x6C, 0x6F] ++ suffixBytes 5 [0x0A, 0x1A, 0x00, 0x23]

/-- V-PRS-01, 317 bytes: one target, one element of eight bytes. -/
def prs01File : Memory :=
  place 0 [0x44, 0x66, 0x75, 0x53, 0x65, 0x01, 0x10, 0x00, 0x00, 0x00, 0x01] ++
  place 11 [0x54, 0x61, 0x72, 0x67, 0x65, 0x74] ++
  place 277 [0x10, 0x00, 0x00, 0x00, 0x01, 0x00, 0x00, 0x00] ++
  place 285 [0x00, 0x00, 0x00, 0x08, 0x08, 0x00, 0x00, 0x00, 0x01, 0x02, 0x03, 0x04, 0x05, 0x06, 0x07, 0x08] ++
  suffixBytes 301 [0xEA, 0x2C, 0x7B, 0x14]

/-- The reset state with this file and FLEN. -/
def loaded (f : Memory) (flen : Word) : State := { State.reset with file := f, flen := flen }

/-- A parse of this file that stands at `ph`, whose suffix CRC, if it was checked, was right. -/
def parsing (ph : Phase) (f : Memory) (flen : Word) : State :=
  let past : Bool := !(ph == .suffix || ph == .sufcrc)
  let inTargets : Bool := ph == .target || ph == .element || ph == .tclose
  { loaded f flen with
    status := { State.reset.status with
      matched := past, checked := past, crcValid := past, kind := inTargets, phase := ph } }

/-- At TARGET, before target 0 of `tcnt` (R136). -/
def atTarget (f : Memory) (flen : Word) (tcnt : Byte) : State :=
  { parsing .target f flen with
    dfuse := { tcnt := tcnt, isize := 16, pver := 1 }
    walk := { cur := 11, tend := 0, tidx := 0, nbel := 0, eidx := 0, tsum := 0 } }

/-- Inside target 0 of `tcnt`, whose span of `tsize` bytes starts at 285, with `cur`, `eidx` and `nbel` as given. -/
def inTarget (ph : Phase) (f : Memory) (flen : Word) (tcnt : Byte) (tsize cur eidx nbel : Word) : State :=
  { parsing ph f flen with
    dfuse := { tcnt := tcnt, isize := 16, pver := 1 }
    walk := { cur := cur, tend := 285 + tsize, tidx := 0, nbel := nbel, eidx := eidx, tsum := tsize } }

/-- The state with this fault recorded. -/
def withFault (s : State) : State := s.faulted .illegalCommand 0 0 1

/-- The state in which the host's next move is `m`. -/
def withMove (m : HostMove) (s : State) : State := { s with port := [m] }

/-- The state an outcome gives, if it gives one. -/
def after (o : Host.Outcome State Fault Refusal) : Option State :=
  match o with
  | .next t => some t
  | .fault _ | .refused _ => none

/-- The last response of the state an outcome gives. -/
def response (o : Host.Outcome State Fault Refusal) : Option Word := (after o).bind (fun t => t.responses.getLast?)

/-- The fault record of the state an outcome gives: ECODE, EOFF, EEXP, EACT. -/
def recordOf (o : Host.Outcome State Fault Refusal) : Option (List Nat) :=
  (after o).map (fun t => [t.record.code.num.toNat, t.record.off.toNat, t.record.exp.toNat, t.record.act.toNat])

/-- ACC and CNT of the state an outcome gives. -/
def accCnt (o : Host.Outcome State Fault Refusal) : Option (Word × Word) := (after o).map (fun t => (t.crc.acc, t.crc.cnt))

/-- The parameters without the parser (92_eei_decisions.md D44). -/
def noParser : Config := { Config.default with hasParser := false }

/-- The instruction a pair of words decodes to, if any. -/
def decoded (w0 v : Word) : Option Instr := (decodeWords w0 v).toOption

/-- Why a pair of words decodes to nothing. -/
def undecoded (w0 v : Word) : Option DecodeError :=
  match decodeWords w0 v with
  | .ok _ => none
  | .error e => some e

/-! ## Well-formedness -/

/-- R85 (c), (d): register 31 is not read, and only RW registers are written. -/
theorem test_wellFormed_refuses :
    Instr.wellFormed (.rd .r31) = false ∧ Instr.wellFormed (.wr .r31 0) = false ∧
    Instr.wellFormed (.wr .res 5) = false ∧ Instr.wellFormed (.wr .status 0) = false ∧
    Instr.wellFormed (.wr .tcnt 0) = false ∧ Instr.wellFormed (.wr .id 0) = false := by decide

/-- R85 (c), (e), R91: without the parser its commands and registers 12 to 29 are illegal, the rest stays legal. -/
theorem test_legal_without_parser :
    (∀ i ∈ [Instr.prsStart, .prsStep, .prsNext, .prsRun, .prsPeek, .rd .tcnt, .rd .tsum],
      i.legal noParser = false ∧ i.legal Config.default = true) ∧
    (∀ i ∈ [Instr.nop, .crcRange, .rd .flen, .rd .id, .wr .flen 1, .fclr, .srst], i.legal noParser = true) := by decide

/-! ## Decoding, with words written out from 30_encoding.md R84 and 95_test_vectors.md -/

theorem test_decode_nop_crc :
    decoded 0b00000000000000000000000000000000 0 = some .nop ∧
    decoded 0b00000100000000000000000000000000 0 = some .crcInit ∧
    decoded 0b00001000000000000000000000110001 0 = some (.crcByte 0x31) ∧
    decoded 0b00001100000000000000000000000000 0x12345678 = some (.crcWord 0x12345678) ∧
    decoded 0b00010000000000000000000000000000 0 = some .crcRange ∧
    decoded 0b00010100000000000000000000000000 0 = some .crcCheck ∧
    decoded 0b00011000000000000000000000000000 0x641C1F5C = some (.crcLoad 0x641C1F5C) ∧
    decoded 0b00011100000000000000000000000000 0x9BE3E0A3 = some (.crcResume 0x9BE3E0A3) := by decide

theorem test_decode_prs :
    decoded 0b01000000000000000000000000000000 0 = some .prsStart ∧
    decoded 0b01000100000000000000000000000000 0 = some .prsStep ∧
    decoded 0b01001000000000000000000000000000 0 = some .prsNext ∧
    decoded 0b01001100000000000000000000000000 0 = some .prsRun ∧
    decoded 0b01010000000000000000000000000000 0 = some .prsPeek := by decide

theorem test_decode_control :
    decoded 0b10000011110000000000000000000000 0 = some (.rd .id) ∧
    decoded 0b10000011111000000000000000000000 0 = some (.rd .r31) ∧
    decoded 0b10000100101000000000000000000000 0xCBF43926 = some (.wr .exp 0xCBF43926) ∧
    decoded 0b10000101011000000000000000000000 317 = some (.wr .flen 317) ∧
    decoded 0b11111000000000000000000000000000 0 = some .fclr ∧
    decoded 0b11111100000000000000000000000000 0 = some .srst := by decide

/-- V-EXC-01, V-EXC-02, V-EXC-03, V-EXC-07, and a word of format RW with a reserved bit set. -/
theorem test_decode_refuses :
    undecoded 0x00000001 0 = some .reservedField ∧ undecoded 0x20000000 0 = some .reservedOpcode ∧
    undecoded 0x80000001 0 = some .reservedField ∧ undecoded 0x0C0000FF 0x12345678 = some .reservedField ∧
    undecoded 0x84100000 0 = some .reservedField ∧ undecoded 0x04200000 0 = some .reservedField := by decide

/-- R82: no word, and a two-word command without its second word. -/
theorem test_decode_too_short :
    (decode []).toOption = none ∧ (decode [0x0C000000]).toOption = none ∧
    (decode [0x0C000000, 7, 9]).toOption = some (.crcWord 7, [9]) ∧
    (decode [0x04000000, 7]).toOption = some (.crcInit, [7]) := by decide

/-- The words of the table, the second word above the first. -/
theorem test_decodeTableWord :
    decodeTableWord 32 0x84A00000 = some (.wr .exp 0) ∧
    decodeTableWord 64 0xCBF4392684A00000 = some (.wr .exp 0xCBF43926) ∧ decodeTableWord 32 0x20000000 = none := by decide

/-! ## The CRC family -/

/-- V-CRC-11. -/
theorem test_step8 :
    step8 0xFFFFFFFF 0x00 = 0x2DFD1072 ∧ step8 0xFFFFFFFF 0x31 = 0x7C231048 ∧ step8 0xFFFFFFFF 0xFF = 0x00FFFFFF ∧
    step8 0 0 = 0 ∧ step8 0 0x01 = 0x77073096 ∧ step8 0 0x80 = 0xEDB88320 ∧ step8 0x12345678 0x9A = 0x4E16B702 := by
  decide

/-- V-CRC-02 and V-CRC-28: the check value, in the machine's arithmetic and in the claims', at both values of XOROUT. -/
theorem test_check_value :
    crcFold Config.init (digitsFile.bytes 0 9) = 0x340BC6D9 ∧
    compute Config.default (digitsFile.bytes 0 9) = 0xCBF43926 ∧
    compute { Config.default with xorOut := .zero } (digitsFile.bytes 0 9) = 0x340BC6D9 := by decide +kernel

/-- NOP responds STATUS, here with FAULT set (R104, R195). -/
theorem test_nop : response (exec .nop (withFault .reset)) = some 0x80 := by decide

/-- CRC.INIT (R105). -/
theorem test_crcInit :
    accCnt (exec .crcInit { State.reset with crc := { State.reset.crc with acc := 5, cnt := 6 } }) =
      some (0xFFFFFFFF, 0) := by decide

/-- V-CRC-05 and V-CRC-16: CNT wraps. -/
theorem test_crcByte :
    accCnt (exec (.crcByte 0x61) .reset) = some (0x174841BC, 1) ∧
    accCnt (exec (.crcByte 0x00) { State.reset with crc := { State.reset.crc with cnt := 0xFFFFFFFF } }) =
      some (0x2DFD1072, 0) := by decide

/-- V-CRC-06 and V-CRC-14: the least significant byte first. -/
theorem test_crcWord : accCnt (exec (.crcWord 0x34333231) .reset) = some (0x641C1F5C, 4) := by decide +kernel

/-- V-CRC-24 to V-CRC-26: an empty range at the end, one byte past it, and a sum that must not wrap. -/
theorem test_crcRange_bounds :
    recordOf (exec .crcRange { loaded digitsFile 9 with crc := ⟨0xFFFFFFFF, 0, 9, 0, 0⟩ }) = some [0, 0, 0, 0] ∧
    recordOf (exec .crcRange { loaded digitsFile 9 with crc := ⟨0xFFFFFFFF, 0, 10, 0, 0⟩ }) = some [8, 10, 0, 9] ∧
    recordOf (exec .crcRange { loaded digitsFile 9 with crc := ⟨0xFFFFFFFF, 0, 0xFFFFFFFF, 2, 0⟩ }) =
      some [8, 0xFFFFFFFF, 2, 9] := by decide

/-- V-CRC-23, its second range: ACC goes from the CRC of "1234" to that of "123456789". -/
theorem test_crcRange_continues :
    accCnt (exec .crcRange { loaded digitsFile 9 with crc := ⟨0x641C1F5C, 4, 4, 5, 0⟩ }) = some (0x340BC6D9, 9) := by
  decide +kernel

/-- Line 12 of P1, and V-CRC-17: a mismatch is no fault. -/
theorem test_crcCheck :
    response (exec .crcCheck { State.reset with crc := ⟨0x340BC6D9, 9, 0, 0, 0xCBF43926⟩ }) = some 3 ∧
    response (exec .crcCheck { State.reset with crc := ⟨0x7C231048, 1, 0, 0, 0xCBF43926⟩ }) = some 2 := by decide

/-- V-CRC-18: ACC is loaded raw, CNT is kept. -/
theorem test_crcLoad :
    accCnt (exec (.crcLoad 0) { State.reset with crc := { State.reset.crc with cnt := 3 } }) = some (0, 3) := by decide

/-- V-CRC-12: ACC after resuming from the CRC of "1234". -/
theorem test_crcResume : accCnt (exec (.crcResume 0x9BE3E0A3) .reset) = some (0x641C1F5C, 0) := by decide

/-! ## The parser -/

/-- P3, line 2; and R193, R195: rejected while a fault is recorded. -/
theorem test_prsStart :
    response (exec .prsStart (loaded prs01File 317)) = some 0x1000 ∧
    response (exec .prsStart (withFault (loaded prs01File 317))) = some 0x80 := by decide

/-- V-EXC-08: PRS.STEP, PRS.NEXT and PRS.RUN in IDLE. -/
theorem test_parse_commands_in_idle :
    recordOf (exec .prsStep .reset) = some [9, 0, 0, 0x44000000] ∧
    recordOf (exec .prsNext .reset) = some [9, 0, 0, 0x48000000] ∧
    recordOf (exec .prsRun .reset) = some [9, 0, 0, 0x4C000000] := by decide

/-- PRS.NEXT on V-PRS-01 from ELEMENT on: the descriptor (0, 0, 0x08000000, 293, 8, 1) at once (P3, lines 3 to 8). -/
theorem test_prsNext :
    let o := exec .prsNext (inTarget .element prs01File 317 1 16 285 0 1)
    response o = some 0x7077 ∧
    (after o).map (fun t => [t.desc.tgt.word, t.desc.elem, t.desc.addr, t.desc.off, t.desc.size]) =
      some [0, 0, 0x08000000, 293, 8] := by decide +kernel

/-- PRS.RUN on V-PRS-01 from ELEMENT on ends in DONE; one on V-PRS-06 ends at the wrong signature byte. -/
theorem test_prsRun :
    response (exec .prsRun (inTarget .element prs01File 317 1 16 285 0 1)) = some 0x8057 ∧
    recordOf (exec .prsRun (parsing .suffix (helloFile.write 15 0x45) 21)) = some [2, 15, 0x44, 0x45] := by
  decide +kernel

/-- V-PRS-22, V-PRS-23, V-PRS-25, and V-EXC-11: it executes while a fault is recorded. -/
theorem test_prsPeek :
    response (exec .prsPeek (loaded prs01File 317)) = some 0x100 ∧
    response (exec .prsPeek (loaded helloFile 21)) = some 0 ∧
    response (exec .prsPeek (loaded prs01File 4)) = some 0 ∧
    response (exec .prsPeek (withFault .reset)) = some 0x80 := by decide

/-- V-PRS-21: with TARGET_NAMED_BYTES = 1 the fields of a target header move. -/
theorem test_target_named_bytes_one :
    recordOf (exec .prsStep { atTarget prs01File 317 1 with cfg := { Config.default with namedBytes := .one } }) =
      some [1, 282, 0x10000000, 19] := by decide +kernel

/-! ## Register access and control -/

/-- V-CTL-01, V-CTL-02, V-CRC-21, and V-EXC-04. -/
theorem test_rd :
    response (exec (.rd .id) .reset) = some 0xDF320101 ∧ response (exec (.rd .acc) .reset) = some 0xFFFFFFFF ∧
    response (exec (.rd .res) .reset) = some 0 ∧
    recordOf (exec (.rd .r31) .reset) = some [7, 0, 0, 0x83E00000] := by decide

/-- ID at other parameters (R46): bit 9 for XOROUT, bit 10 for TARGET_NAMED_BYTES, bit 8 for HAS_PARSER. -/
theorem test_rd_id_parameters :
    response (exec (.rd .id) (.resetIn { xorOut := .zero, namedBytes := .one, hasParser := false })) =
      some 0xDF320601 := by decide

/-- V-CTL-03, V-EXC-05 and V-EXC-06. -/
theorem test_wr :
    (after (exec (.wr .len 6) .reset)).map (fun t => t.crc.len) = some 6 ∧
    recordOf (exec (.wr .res 5) .reset) = some [7, 0, 0, 0x84400000] ∧
    recordOf (exec (.wr .status 0) .reset) = some [7, 0, 0, 0x84C00000] := by decide

/-- V-CTL-04: FLEN is not writable while PHASE is active. -/
theorem test_wr_flen_in_parse :
    let o := exec (.wr .flen 0) (parsing .sufcrc prs01File 317)
    response o = some 0x2080 ∧ recordOf o = some [9, 0, 0, 0x85600000] ∧ (after o).map (fun t => t.flen) = some 317 := by
  decide

/-- V-CTL-06, and the end of V-EXC-13: PHASE is kept. -/
theorem test_fclr :
    response (exec .fclr (withFault .reset)) = some 0 ∧ recordOf (exec .fclr (withFault .reset)) = some [0, 0, 0, 0] ∧
    response (exec .fclr (withFault (parsing .sufcrc helloFile 21))) = some 0x2000 := by decide

/-- V-CTL-07 and V-CTL-09: the reset state, the file kept. -/
theorem test_srst :
    let o := exec .srst { loaded digitsFile 9 with crc := ⟨0x00FFFFFF, 1, 0, 0, 0⟩ }
    response o = some 0 ∧ accCnt o = some (0xFFFFFFFF, 0) ∧ (after o).map (fun t => (t.flen, t.file)) =
      some (0, digitsFile) := by decide

/-! ## The command port -/

/-- R82, R87: the first word of a two-word command waits without a response, the second completes it; an illegal first word takes its
operand too (V-EXC-07). -/
theorem test_two_word_command :
    (after (step (withMove (.word 0x84A00000) .reset))).map (fun t => (t.pend, t.responses)) =
      some (some 0x84A00000, []) ∧
    (after (step { withMove (.word 7) .reset with pend := some 0x84A00000 })).map (fun t => (t.pend, t.crc.exp)) =
      some (none, 7) ∧
    recordOf (step { withMove (.word 0x12345678) .reset with pend := some 0x0C0000FF }) =
      some [7, 0, 0, 0x0C0000FF] := by decide

/-- R228, R220: RST empties PEND, keeps FILE and responds nothing; an empty port changes nothing. -/
theorem test_rst_and_waiting :
    step { withMove .rst (loaded digitsFile 9) with pend := some 0x0C000000 } =
      .next { State.reset with file := digitsFile } ∧
    step State.reset = .next State.reset := by
  constructor <;> rfl

/-- The host writes FILE, and may not below FLEN during a parse (R77, R225). -/
theorem test_host_writes_file :
    (after (step (withMove (.fileByte 3 0x20) (loaded digitsFile 9)))).map (fun t => (t.file.read 3, t.file.read 4)) =
      some (0x20, 0x35) ∧
    (after (step (withMove (.fileByte 0 0) (loaded digitsFile 9)))).map (fun t => t.file.wf) = some true ∧
    after (step (withMove (.fileByte 20 0x20) (parsing .sufcrc helloFile 21))) = none ∧
    (after (step (withMove (.fileByte 21 0x20) (parsing .sufcrc helloFile 21)))).map (fun t => t.file.read 21) =
      some 0x20 := by decide

/-- The host's question: the next step runs exactly the command placed. -/
theorem test_withFetchWord :
    (after (step (State.reset.withFetchWord 64 0xCBF4392684A00000))).map (fun t => t.crc.exp) = some 0xCBF43926 ∧
    recordOf (step (State.reset.withFetchWord 32 0x44000000)) = some [9, 0, 0, 0x44000000] := by decide

/-! ## The assembler's language -/

/-- Lines of P1 to P3 and of R89 and R90. -/
theorem test_assemble :
    (assembleLine "CRC.BYTE '1'").toOption = some [.crcByte 0x31] ∧
    (assembleLine "WR EXP, 0xCBF43926 ; the check value").toOption = some [.wr .exp 0xCBF43926] ∧
    (assembleLine "RD.DESC").toOption = some [.rd .otgt, .rd .oelem, .rd .oaddr, .rd .ooff, .rd .osize] ∧
    (assembleLine "CRC.BYTE 256").toOption = none := by decide +kernel

/-! ## Witnesses: encoding and the port -/

theorem witness_DecodedWordsAreTheEncoding : decodeWords 0x84A00000 7 = .ok (.wr .exp 7) := by rfl

theorem witness_ShapesAreTheRowsOfTheOpcodeMap :
    ((0x84000000, 0xFC1FFFFF) ∈ matchAndMask ∧ (0x84A00000 : Word) &&& 0xFC1FFFFF = 0x84000000) ∧
    ∀ o ∈ [0x08, 0x0F, 0x15, 0x1F, 0x22, 0x3D], (opcOf (packWord o 0 0)) = o := by decide

theorem witness_StepRunsTheDecodedCommand :
    ((withMove (.word 0x80400000) .reset).pend = none ∧ isTwoWord 0x80400000 = false ∧
      decoded 0x80400000 0 = some (.rd .res)) ∧
    ((withMove (.word 0x84A00000) .reset).pend = none ∧ isTwoWord 0x84A00000 = true) ∧
    decoded 0x84A00000 7 = some (.wr .exp 7) := by decide

theorem witness_LengthIsDecidedByOpcAlone :
    let s : State := { State.reset with port := [.word 0x0C0000FF, .word 0xFC000000] }
    let t : State := { State.reset with port := [.word 0xFC000000, .word 0x0C0000FF] }
    s.pend = none ∧ t.pend = none ∧ (opcOf 0x0C0000FF).toNat = 0x03 ∧ (opcOf 0xFC000000).toNat = 0x3F := by decide

theorem witness_IllegalCommandsOnlyRaise :
    ([(0x00000001 : Word), 0x20000000, 0x0C0000FF].all fun w => matchAndMask.all fun r => w &&& r.2 != r.1) = true ∧
    (Reg.num .r31 = 31 ∧ noParser.hasParser = false ∧ (Reg.num .tcnt).toNat = 12 ∧ (Reg.num .tsum).toNat = 29) ∧
    (∀ r ∈ [Reg.res, .status, .ecode, .eact, .tcnt, .id, .r31], r.num ∉ [(0 : BitVec 5), 1, 3, 4, 5, 11]) ∧
    (State.resetIn noParser).cfg.hasParser = false := by decide

theorem witness_EveryCommandRespondsOnce :
    Instr.legal Config.default (.rd .res) = true ∧ Instr.legal Config.default (.rd .r31) = false ∧
    undecoded 0x00000001 0 = some .reservedField ∧
    isTwoWord 0x84A00000 = true ∧ (withMove (.word 0x84A00000) .reset).pend = none := by decide

theorem witness_CommandsAreRejectedWhileAFaultIsRecorded :
    (withFault .reset).status.fault = true ∧
    ∀ i ∈ [Instr.crcInit, .crcByte 1, .crcWord 1, .crcRange, .crcCheck, .crcLoad 1, .crcResume 1, .prsStart, .prsStep,
      .prsNext, .prsRun, .wr .acc 1], i.legal (withFault .reset).cfg = true ∧ i ≠ .nop ∧ i ≠ .prsPeek ∧ i ≠ .fclr ∧
        i ≠ .srst := by decide

theorem witness_FirstFaultWins :
    (withFault .reset).status.fault = true ∧ (after (exec .fclr (withFault .reset))).isSome = true ∧
    (after (exec .crcRange (withFault .reset))).isSome = true := by decide

theorem witness_NopThenSrstResynchronises :
    ({ parsing .sufcrc helloFile 21 with pend := some 0x0C000000, port := [.word 0x00000000, .word 0xFC000000] } :
      State).port = .word 0x00000000 :: .word 0xFC000000 :: [] := by rfl

theorem witness_HostMovesDoWhatTheyDo :
    ((withMove (.wordAbandoned 0x4C000000) .reset).port = .wordAbandoned 0x4C000000 :: []) ∧
    ((withMove (.fileByte 0 0xFF) (loaded digitsFile 9)).FileInv ∧ (loaded digitsFile 9).status.phase.active = false) ∧
    ((withMove (.fileByte 21 0xFF) (parsing .sufcrc helloFile 21)).FileInv ∧ (21 : Word).toNat ≤ (21 : Word).toNat) ∧
    ((parsing .sufcrc helloFile 21).status.phase.active = true ∧ (20 : Word).toNat < (21 : Word).toNat) := by decide

theorem witness_OnlyAHostWriteDuringAParseStops :
    (withMove (.fileByte 0 0) (parsing .suffix helloFile 21)).hostKeepsFile = false ∧
    (withMove (.fileByte 0 0) .reset).hostKeepsFile = true := by decide

/-! ## Witnesses: the CRC family -/

/-- For the statements of NOP and of each CRC.* command (`NopOnlyResponds` to `CrcResumeLoadsTheFinalisedCrc`): a word their clause
on malformed words is about, a state for each of the clauses on FAULT, and one for CRC.WORD's clause on FILE. -/
theorem witness_crc_commands :
    ([((0x00 : BitVec 6), (0x00000001 : Word)), (0x01, 0x04000001), (0x02, 0x08000100), (0x03, 0x0C0000FF),
        (0x04, 0x10200000), (0x05, 0x14000001), (0x06, 0x18000100), (0x07, 0x1C000001)].all fun p =>
      opcOf p.2 == p.1 && p.2 != packWord p.1 0 0) = true ∧
    (0x08000100 : Word) &&& 0xFFFFFF00 ≠ 0x08000000 ∧
    (withFault .reset).status.fault = true ∧ State.reset.status.fault = false ∧
    (0x34333231 : Word) = digitsFile.readLE 0 4 := by decide

/-- The bound of CRC.RANGE from both sides. -/
theorem witness_CrcRangeAbsorbsARangeOrFaults :
    let s : State := { loaded digitsFile 9 with crc := ⟨0xFFFFFFFF, 0, 4, 5, 0⟩ }
    let t : State := { loaded digitsFile 9 with crc := ⟨0xFFFFFFFF, 0, 4, 6, 0⟩ }
    (s.status.fault = false ∧ s.crc.base.toNat + s.crc.len.toNat ≤ s.flen.toNat) ∧
    (t.status.fault = false ∧ t.crc.base.toNat + t.crc.len.toNat > t.flen.toNat) := by decide

/-- "1234" as a word, "5" as a byte and FILE[5, 9) as a range; and a range in two parts, up to FLEN. -/
theorem witness_CrcIsIncremental :
    let s : State := { loaded digitsFile 9 with crc := ⟨0xFFFFFFFF, 0, 5, 4, 0⟩ }
    (s.status.fault = false ∧
      List.Forall₂ (fun i b => s.bytesOf i = some b) [.crcWord 0x34333231, .crcByte 0x35, .crcRange]
        [[0x31, 0x32, 0x33, 0x34], [0x35], [0x36, 0x37, 0x38, 0x39]]) ∧
    (4 : Word).toNat + (5 : Word).toNat + (0 : Word).toNat ≤ s.flen.toNat := by decide

theorem witness_AnySingleBitFlipChangesTheCrc : (7 : Nat) < 8 := by decide

theorem witness_CrcComputeAnswersTheCrc :
    let s : State := { loaded digitsFile 9 with
      port := ((Pseudo.compute 4 5).expand.flatMap encode).map HostMove.word }
    s.pend = none ∧ s.status.fault = false ∧ (4 : Word).toNat + (5 : Word).toNat ≤ s.flen.toNat := by decide

/-! ## Witnesses: the parser's transitions, each clause, with the outcome 95_test_vectors.md or the rule gives -/

/-- For `PrsStartClearsTheParser`, `PrsStepIsOneTransition`, `PrsNextRunsToTheNextElement`, `PrsRunRunsToTheEnd` and
`PrsPeekDetectsDfuse`: a malformed word of each, and a state for each clause on FAULT and PHASE. -/
theorem witness_prs_commands :
    ([((0x10 : BitVec 6), (0x40000001 : Word)), (0x11, 0x44000001), (0x12, 0x48000001), (0x13, 0x4C000001),
        (0x14, 0x50000001)].all fun p => opcOf p.2 == p.1 && p.2 != packWord p.1 0 0) = true ∧
    State.reset.cfg.hasParser = true ∧ (withFault .reset).status.fault = true ∧
    (State.reset.status.fault = false ∧ State.reset.status.phase = .idle) ∧
    (parsing .suffix helloFile 21).status.fault = false ∧ (parsing .suffix helloFile 21).status.phase ≠ .idle := by decide

/-- V-PRS-04, V-PRS-20, V-PRS-06 with byte 14 wrong and as it stands, and V-PRS-03. -/
theorem witness_SuffixTransition :
    (∀ p ∈ [(parsing .suffix helloFile 15, [1, 0, 16, 15]), (parsing .suffix (helloFile.write 13 0) 21, [2, 13, 0x55, 0]),
        (parsing .suffix (helloFile.write 14 0x45) 21, [2, 14, 0x46, 0x45]),
        (parsing .suffix (helloFile.write 15 0x45) 21, [2, 15, 0x44, 0x45]),
        (parsing .suffix helloFile 21, [0, 0, 0, 0]), (parsing .suffix (suffixBytes 0 []) 16, [0, 0, 0, 0])],
      p.1.Inv ∧ p.1.cfg.hasParser = true ∧ p.1.status.fault = false ∧ p.1.status.phase = .suffix ∧
        recordOf (exec .prsStep p.1) = some p.2) ∧
    (parsing .suffix helloFile 15).flen.toNat < 16 ∧ ¬ (parsing .suffix helloFile 16).flen.toNat < 16 := by decide +kernel

/-- V-PRS-05's second step. -/
theorem test_sufcrc :
    let s : State := { parsing .sufcrc (suffixBytes 0 []) 16 with suffix := ⟨0, 0, 16, 0xCFB798B1⟩ }
    accCnt (exec .prsStep s) = some (0x3048674E, 12) := by decide +kernel

theorem witness_SufcrcTransition :
    let s := parsing .sufcrc helloFile 21
    s.Inv ∧ s.status.fault = false ∧ s.status.phase = .sufcrc := by decide +kernel

/-- V-PRS-03, V-PRS-16, V-PRS-08, V-PRS-07, V-PRS-01: the third step; and ISIZE, then the body, just fitting. -/
theorem witness_PrefixTransition :
    ∀ p ∈ [(helloFile, (21 : Word), (0x4007 : Word), [0, 0, 0, 0]),
        (place 0 [0x44, 0x66, 0x75, 0x53, 0x65, 1], 26, 0x9097, [1, 0, 11, 10]),
        (prs01File.write 6 0xE8 |>.write 7 3, 317, 0x9097, [4, 6, 301, 1000]),
        (prs01File.write 10 0, 317, 0x9097, [4, 10, 1, 0]),
        (prs01File, 317, 0x5017, [0, 0, 0, 0]), (prs01File, 32, 0x5017, [0, 0, 0, 0]),
        (prs01File, 31, 0x9097, [4, 6, 15, 16]), (prs01File.write 6 0, 27, 0x5017, [0, 0, 0, 0])],
      let s := parsing .dfusePrefix p.1 p.2.1
      s.Inv ∧ s.status.fault = false ∧ s.status.phase = .dfusePrefix ∧ response (exec .prsStep s) = some p.2.2.1 ∧
        recordOf (exec .prsStep s) = some p.2.2.2 := by decide +kernel

/-- V-PRS-03's fourth step. -/
theorem witness_PlainTransition :
    let s := parsing .plain helloFile 21
    s.Inv ∧ s.status.fault = false ∧ s.status.phase = .plain ∧ response (exec .prsStep s) = some 0x8027 := by decide +kernel

/-- V-PRS-17, V-PRS-09, V-PRS-11, V-PRS-01, V-PRS-14, and the header, then the span, just fitting or one byte short. -/
theorem witness_TargetTransition :
    ∀ p ∈ [(prs01File, (37 : Word), (0x9097 : Word), [1, 11, 274, 10]),
        (prs01File.write 11 0x74, 317, 0x9097, [3, 11, 0x54, 0x74]),
        (prs01File.write 16 0x54, 317, 0x9097, [3, 16, 0x74, 0x54]),
        (prs01File.write 277 100, 317, 0x9097, [1, 285, 100, 16]),
        (prs01File, 317, 0x6017, [0, 0, 0, 0]),
        ((prs01File.write 277 0).write 281 0, 301, 0x7017, [0, 0, 0, 0]),
        (prs01File, 300, 0x9097, [1, 11, 274, 273]), (prs01File, 316, 0x9097, [1, 285, 16, 15])],
      let s := atTarget p.1 p.2.1 1
      s.Inv ∧ s.status.fault = false ∧ s.status.phase = .target ∧ response (exec .prsStep s) = some p.2.2.1 ∧
        recordOf (exec .prsStep s) = some p.2.2.2 := by decide +kernel

/-- V-PRS-10, V-PRS-01, V-PRS-13 (a next element follows), and a header that does not fit or, with no data, just fits. -/
theorem witness_ElementTransition :
    ∀ p ∈ [(inTarget .element (prs01File.write 289 9) 317 1 16 285 0 1, (0x9097 : Word), [5, 293, 9, 8]),
        (inTarget .element prs01File 317 1 16 285 0 1, 0x7077, [0, 0, 0, 0]),
        (inTarget .element prs01File 317 1 16 285 0 2, 0x6077, [0, 0, 0, 0]),
        (inTarget .element prs01File 317 1 7 285 0 1, 0x9097, [5, 285, 8, 7]),
        (inTarget .element (prs01File.write 289 0) 317 1 8 285 0 1, 0x7077, [0, 0, 0, 0])],
      p.1.Inv ∧ p.1.status.fault = false ∧ p.1.status.phase = .element ∧ response (exec .prsStep p.1) = some p.2.1 ∧
        recordOf (exec .prsStep p.1) = some p.2.2 := by decide +kernel

/-- V-PRS-12 but for the descriptor, V-PRS-01, and a target that is not the last. -/
theorem witness_TcloseTransition :
    ∀ p ∈ [(inTarget .tclose prs01File 321 1 20 301 1 1, (0x9097 : Word), [5, 301, 305, 301]),
        (inTarget .tclose prs01File 317 1 16 301 1 1, 0x8017, [0, 0, 0, 0]),
        (inTarget .tclose prs01File 317 2 16 301 1 1, 0x5017, [0, 0, 0, 0])],
      p.1.Inv ∧ p.1.status.fault = false ∧ p.1.status.phase = .tclose ∧ response (exec .prsStep p.1) = some p.2.1 ∧
        recordOf (exec .prsStep p.1) = some p.2.2 := by decide +kernel

/-- V-EXC-13: PRS.STEP in FAILED after FCLR does nothing; and PRS.RUN in DONE clears OUT_VALID. -/
theorem witness_TerminalPhasesStay :
    let s := parsing .failed helloFile 21
    let d : State := { parsing .done helloFile 21 with status := { (parsing .done helloFile 21).status with outValid := true } }
    s.cfg.hasParser = true ∧ s.status.fault = false ∧ s.status.phase = .failed ∧ d.Inv ∧ d.status.fault = false ∧
    response (exec .prsStep s) = some 0x9007 ∧ response (exec .prsRun d) = some 0x8007 := by decide

theorem witness_PhaseMovesAlongTheEdges :
    ∀ ph ∈ [Phase.suffix, .sufcrc, .dfusePrefix, .plain, .target, .element, .tclose, .done, .failed],
      (parsing ph helloFile 21).status.phase ≠ .idle := by decide

theorem witness_ParseEndsWithinTheBound :
    (parsing .suffix helloFile 21).Inv ∧ (parsing .suffix prs01File 317).Inv ∧
    (parsing .suffix prs01File 317).status.phase = .suffix := by decide +kernel

theorem witness_DescriptorsComeInFileOrder :
    let s := inTarget .element prs01File 317 1 16 285 0 1
    s.Inv ∧ (descriptorsFrom 3 s).map (fun d => (d.off, d.size)) = [(293, 8)] := by decide +kernel

/-- V-PRS-01 from its target, from its element and from its start on, and V-PRS-14's empty target. -/
theorem witness_ElementsTileTheirTarget :
    (let s := atTarget prs01File 317 1
     s.Inv ∧ s.status.phase = .target ∧ (parseEnd s).status.phase = .done) ∧
    (let s := atTarget ((prs01File.write 277 0).write 281 0) 301 1
     s.Inv ∧ s.status.phase = .target ∧ (parseEnd s).status.phase = .done) ∧
    (let s := inTarget .element prs01File 317 1 16 285 0 1
     s.Inv ∧ s.status.phase = .element ∧ (parseEnd s).status.phase = .done) ∧
    (let s := parsing .suffix prs01File 317
     s.Inv ∧ s.status.phase = .suffix ∧ (parseEnd s).status.phase = .done ∧ (parseEnd s).status.kind = true) := by
  decide +kernel

/-! ## Witnesses: register access and control -/

theorem witness_RdAnswersTheRegister :
    (opcOf 0x80000001 = 0x20 ∧ (0x80000001 : Word) &&& 0xFC1FFFFF ≠ 0x80000000) ∧
    (Reg.num .id ≠ 31 ∧ ¬ (12 ≤ (Reg.num .id).toNat ∧ (Reg.num .id).toNat ≤ 29)) ∧
    (Reg.num .tsum ≠ 31 ∧ State.reset.cfg.hasParser = true) ∧
    (noParser.hasParser = false ∧ (Reg.num .tcnt).toNat = 12 ∧ Reg.num .r31 = 31) := by decide

theorem witness_WrWritesTheRegister :
    (opcOf 0x84000001 = 0x21 ∧ (0x84000001 : Word) &&& 0xFC1FFFFF ≠ 0x84000000) ∧
    (withFault .reset).status.fault = true ∧ Reg.num .id ∉ [(0 : BitVec 5), 1, 3, 4, 5, 11] ∧
    ((State.resetIn noParser).Inv ∧ (State.resetIn noParser).cfg.hasParser = false) ∧
    (∀ ph ∈ [Phase.idle, .done, .failed], (parsing ph helloFile 21).status.fault = false) ∧
    (∀ ph ∈ [Phase.suffix, .tclose], (parsing ph helloFile 21).status.fault = false ∧
      (parsing ph helloFile 21).status.phase ∉ [Phase.idle, .done, .failed]) := by decide

/-- For `FclrClearsTheRecord` and `SrstResets`: a malformed word of each. -/
theorem witness_fclr_srst :
    (opcOf 0xF8000001 = 0x3E ∧ (0xF8000001 : Word) ≠ 0xF8000000) ∧
    (opcOf 0xFC200000 = 0x3F ∧ (0xFC200000 : Word) ≠ 0xFC000000) := by decide

theorem witness_ResetValues : Reg.cnt ∈ Reg.all ∧ Reg.r31 ∈ Reg.all ∧ Reg.cnt ∉ [Reg.acc, .res, .id] := by decide

theorem witness_FileFieldsAreLittleEndian :
    (4 : Nat) ∈ [1, 2, 4] ∧ digitsFile.readLE 0 4 = 0x34333231 ∧ digitsFile.readLE 8 2 = 0x0039 := by decide

/-! ## Witnesses: frames, the invariant, FILE -/

/-- For `CrcFamilyFrame`, `ParserFamilyFrame`, `ControlFamilyFrame`, `FlagsChangeOnlyByTheirWriters` and
`RegistersChangeOnlyByTheirWriters`: every command gives a next state, in a state where it acts. -/
theorem witness_frames :
    (∀ i ∈ [Instr.nop, .crcInit, .crcByte 1, .crcWord 1, .crcRange, .crcCheck, .crcLoad 1, .crcResume 1, .prsStart,
        .prsStep, .prsPeek, .rd .res, .wr .base 1, .wr .flen 1, .fclr, .srst],
      (after (exec i (loaded helloFile 21))).isSome = true) ∧
    (∀ i ∈ [Instr.prsStart, .prsStep, .prsNext, .prsRun, .prsPeek],
      (after (exec i (inTarget .element prs01File 317 1 16 285 0 1))).isSome = true) ∧
    Instr.legal Config.default (.rd .res) = true ∧ Instr.legal Config.default (.wr .flen 1) = true := by decide +kernel

/-- For the clause of `FlagsChangeOnlyByTheirWriters` on FAULT: each of the five ways FAULT is set. -/
theorem witness_fault_is_raised :
    (recordOf (exec (.rd .r31) .reset) = some [7, 0, 0, 0x83E00000]) ∧
    (recordOf (exec .crcRange { loaded digitsFile 9 with crc := ⟨0, 0, 9, 1, 0⟩ }) = some [8, 9, 1, 9]) ∧
    (recordOf (exec (.wr .flen 0) (parsing .tclose prs01File 317)) = some [9, 0, 0, 0x85600000]) ∧
    (recordOf (exec .prsRun .reset) = some [9, 0, 0, 0x4C000000]) ∧
    (recordOf (exec .prsNext (parsing .suffix helloFile 15)) = some [1, 0, 16, 15]) := by decide +kernel

/-- States that meet the invariant, in every phase but IDLE, and a step from one of them. -/
theorem witness_EveryStepKeepsTheInvariant :
    (∀ s ∈ [parsing .suffix helloFile 21, parsing .sufcrc helloFile 21, parsing .dfusePrefix prs01File 317,
        parsing .plain helloFile 21, atTarget prs01File 317 2, inTarget .element prs01File 317 1 16 285 0 1,
        inTarget .tclose prs01File 317 1 16 301 1 1, parsing .done helloFile 21, withFault (parsing .failed helloFile 21),
        { loaded digitsFile 9 with pend := some 0x0C0000FF }], s.Inv) ∧
    (after (step (withMove (.word 0x44000000) (atTarget prs01File 317 2)))).isSome = true := by decide +kernel

/-- FILE with another byte just past FLEN. -/
theorem witness_NothingDependsOnBytesPastFlen :
    (loaded digitsFile 9).Inv ∧ (∀ a, a < 9 → (digitsFile.write 9 0x30).read a = digitsFile.read a) ∧
    (after (exec .crcRange { loaded digitsFile 9 with crc := ⟨0xFFFFFFFF, 0, 4, 5, 0⟩ })).isSome = true := by decide +kernel

end Sys2Proof.Tests
end

section
/-! SUPPORT. The computed words STATUS and ID, bit by bit (10_state.md R29, R46), and the statements about them. -/

namespace Sys2Proof.Machine

/-! ## STATUS -/

/-- PHASE as STATUS shows it: 0 without the parser (R39, R49). -/
def State.shownPhase (s : State) : BitVec 4 := if s.cfg.hasParser then s.status.phase.num else 0

/-- Bits 0 to 15 of STATUS, bit 0 first (R29). -/
def State.statusBits (s : State) : List Bool :=
  let p := s.cfg.hasParser
  [s.status.matched, s.status.checked, p && s.status.crcValid, p && s.status.warnCrc, p && s.status.kind,
   p && s.status.outValid, p && s.status.addrKnown, s.status.fault, p && s.status.peek, false, false, false] ++
  [s.shownPhase.getLsbD 0, s.shownPhase.getLsbD 1, s.shownPhase.getLsbD 2, s.shownPhase.getLsbD 3]

theorem statusWord_getLsbD (s : State) (k : Nat) : s.statusWord.getLsbD k = s.statusBits.getD k false := by
  by_cases hk : k < 32
  · simp only [State.statusWord, bit, BitVec.getLsbD_append]
    interval_cases k <;> simp [State.statusBits, State.shownPhase]
  · have hlen : s.statusBits.length ≤ k := by simp [State.statusBits]; omega
    rw [BitVec.getLsbD_of_ge _ _ (by omega), List.getD_eq_default _ _ hlen]

theorem statusWord_reserved (s : State) : s.statusWord.extractLsb' 9 3 = 0 := by
  apply BitVec.eq_of_getLsbD_eq
  intro k hk
  rw [BitVec.getLsbD_extractLsb', statusWord_getLsbD]
  interval_cases k <;> rfl

theorem statusWord_phase (s : State) : s.statusWord.extractLsb' 12 4 = s.shownPhase := by
  apply BitVec.eq_of_getLsbD_eq
  intro k hk
  rw [BitVec.getLsbD_extractLsb', statusWord_getLsbD]
  interval_cases k <;> rfl

theorem statusWord_high (s : State) : s.statusWord.extractLsb' 16 16 = 0 := by
  apply BitVec.eq_of_getLsbD_eq
  intro k _
  have hlen : s.statusBits.length ≤ 16 + k := Nat.le_add_right 16 k
  rw [BitVec.getLsbD_extractLsb', statusWord_getLsbD, List.getD_eq_default _ _ hlen]
  simp

/-- Settles O47: each bit is the one `statusBits` lists, and PHASE is the field at bit 12. -/
theorem statusLayout : Obligations.StatusLayout := by
  intro s w p
  refine ⟨statusWord_getLsbD s 0, statusWord_getLsbD s 1, statusWord_getLsbD s 2, statusWord_getLsbD s 3,
    statusWord_getLsbD s 4, statusWord_getLsbD s 5, statusWord_getLsbD s 6, statusWord_getLsbD s 7,
    statusWord_getLsbD s 8, congrArg BitVec.toNat (statusWord_reserved s), ?_,
    congrArg BitVec.toNat (statusWord_high s)⟩
  rw [statusWord_phase s]
  unfold State.shownPhase
  split
  · cases s.status.phase <;> rfl
  · rfl

/-! ## ID -/

/-- What an illegal command does, as the claims write it (30_encoding.md R85). -/
theorem illegalCommand_eq_afterIllegal (w0 : Word) (s : State) : illegalCommand w0 s = s.afterIllegal w0 := by
  unfold illegalCommand raise State.afterIllegal State.faulted
  split <;> rfl

/-- A command that is illegal in the configuration raises IllegalCommand with its word 0 and does nothing else (R85, R87). -/
theorem exec_illegal {i : Instr} {s : State} (h : i.legal s.cfg = false) :
    exec i s = .next (s.afterIllegal i.word0) := by
  rw [exec_eq_runCommand, runCommand_illegal h, illegalCommand_eq_afterIllegal]

/-- The fields of ID, from bit 31 down (R46). -/
theorem idWord_fields (c : Config) :
    c.idWord.extractLsb' 16 16 = 0xDF32 ∧ c.idWord.extractLsb' 11 5 = 0 ∧
    c.idWord.getLsbD 10 = decide (c.nb = 1) ∧ c.idWord.getLsbD 9 = decide (c.xorWord = 0x00000000) ∧
    c.idWord.getLsbD 8 = c.hasParser ∧ c.idWord.extractLsb' 0 8 = 1 := by
  obtain ⟨x, n, p⟩ := c
  cases x <;> cases n <;> cases p <;> decide

/-- Settles O48: ID is a function of the configuration alone, register 30 is not writable, and reset keeps the configuration. -/
theorem idReportsTheParameters : Obligations.IdReportsTheParameters := by
  refine ⟨by decide, fun s => ?_⟩
  obtain ⟨hmagic, hzero, hnamed, hxor, hparser, hversion⟩ := idWord_fields s.cfg
  have hwr (v : Word) : exec (.wr .id v) s = .next (s.afterIllegal 0x87C00000) := exec_illegal rfl
  exact ⟨congrArg BitVec.toNat hmagic, congrArg BitVec.toNat hzero, hnamed, hxor, hparser,
    congrArg BitVec.toNat hversion, hwr, rfl⟩

end Sys2Proof.Machine
end

section
/-! SUPPORT. Who writes what (10_state.md R23 to R52): one rule per shared operation for what it keeps, then what each command's
rule keeps, and the two statements on the writers of STATUS and of the registers. -/

namespace Sys2Proof.Machine

/-! ## What a transition does to the CRC unit, PEEK and the fault record -/

/-- The CRC unit, PEEK, FAULT and the fault record are the same. -/
structure KeepsUnit (t s : State) : Prop where
  crc    : t.crc = s.crc
  peek   : t.status.peek = s.status.peek
  fault  : t.status.fault = s.status.fault
  record : t.record = s.record

/-- The codes a transition can fail with (60_exceptions.md R191). -/
def structuralCodes : List FaultCode :=
  [.truncatedFile, .badSignature, .badTargetSignature, .malformedPrefix, .truncatedTarget]

/-- A transition's outcome: it keeps the CRC unit, PEEK and the fault record, or it fails with a structural code after keeping
them. -/
inductive FailsOrKeeps (s : State) : State → Prop where
  | keeps {t : State} : KeepsUnit t s → FailsOrKeeps s t
  | fails {e : FaultCode} {off exp act : Word} {u : State} :
      e ∈ structuralCodes → KeepsUnit u s → FailsOrKeeps s (fail e off exp act u)

/-- What follows a step that keeps the unit. -/
theorem FailsOrKeeps.after {r s t : State} (h : FailsOrKeeps s t) (hs : KeepsUnit s r) : FailsOrKeeps r t := by
  have trans {u : State} (hu : KeepsUnit u s) : KeepsUnit u r :=
    ⟨hu.crc.trans hs.crc, hu.peek.trans hs.peek, hu.fault.trans hs.fault, hu.record.trans hs.record⟩
  cases h with
  | keeps hu => exact .keeps (trans hu)
  | fails he hu => exact .fails he (trans hu)

theorem transSuffix_failsOrKeeps (s : State) : FailsOrKeeps s (transSuffix s) := by
  unfold transSuffix
  dsimp only
  split
  · exact .fails (by decide) ⟨rfl, rfl, rfl, rfl⟩
  · split
    · exact .fails (by decide) ⟨rfl, rfl, rfl, rfl⟩
    · exact .keeps ⟨rfl, rfl, rfl, rfl⟩

theorem transPrefix_failsOrKeeps (s : State) : FailsOrKeeps s (transPrefix s) := by
  unfold transPrefix
  dsimp only
  split
  · split
    · exact .fails (by decide) ⟨rfl, rfl, rfl, rfl⟩
    · split
      · exact .fails (by decide) ⟨rfl, rfl, rfl, rfl⟩
      · split
        · exact .fails (by decide) ⟨rfl, rfl, rfl, rfl⟩
        · exact .keeps ⟨rfl, rfl, rfl, rfl⟩
  · exact .keeps ⟨rfl, rfl, rfl, rfl⟩

theorem targetSpan_failsOrKeeps (b : Nat) (h : TargetHdr) (s : State) : FailsOrKeeps s (targetSpan b h s) := by
  unfold targetSpan
  split
  · exact .fails (by decide) ⟨rfl, rfl, rfl, rfl⟩
  · exact .keeps ⟨rfl, rfl, rfl, rfl⟩

theorem transTarget_failsOrKeeps (s : State) : FailsOrKeeps s (transTarget s) := by
  unfold transTarget
  dsimp only
  split
  · exact .fails (by decide) ⟨rfl, rfl, rfl, rfl⟩
  · split
    · exact .fails (by decide) ⟨rfl, rfl, rfl, rfl⟩
    · exact targetSpan_failsOrKeeps _ _ _

theorem transElement_failsOrKeeps (s : State) : FailsOrKeeps s (transElement s) := by
  unfold transElement
  dsimp only
  split
  · exact .fails (by decide) ⟨rfl, rfl, rfl, rfl⟩
  · split
    · exact .fails (by decide) ⟨rfl, rfl, rfl, rfl⟩
    · exact .keeps ⟨rfl, rfl, rfl, rfl⟩

theorem transTclose_failsOrKeeps (s : State) : FailsOrKeeps s (transTclose s) := by
  unfold transTclose
  split
  · exact .fails (by decide) ⟨rfl, rfl, rfl, rfl⟩
  · exact .keeps ⟨rfl, rfl, rfl, rfl⟩

/-- Everything a transition can do to the CRC unit, PEEK and the fault record: only SUFCRC writes the CRC unit (R135). -/
theorem transition_cases (s : State) :
    FailsOrKeeps s (transition s) ∨
    (s.status.phase = .sufcrc ∧
      transition s = transSufcrc { s with status := { s.status with outValid := false } }) := by
  have hclear : KeepsUnit { s with status := { s.status with outValid := false } } s := ⟨rfl, rfl, rfl, rfl⟩
  unfold transition
  dsimp only
  split
  · exact .inl ((transSuffix_failsOrKeeps _).after hclear)
  · exact .inr ⟨‹_›, rfl⟩
  · exact .inl ((transPrefix_failsOrKeeps _).after hclear)
  · exact .inl (.keeps ⟨rfl, rfl, rfl, rfl⟩)
  · exact .inl ((transTarget_failsOrKeeps _).after hclear)
  · exact .inl ((transElement_failsOrKeeps _).after hclear)
  · exact .inl ((transTclose_failsOrKeeps _).after hclear)
  all_goals exact .inl (.keeps hclear)

theorem FailsOrKeeps.crc {s t : State} (h : FailsOrKeeps s t) : t.crc = s.crc := by
  cases h with
  | keeps hu => exact hu.crc
  | fails _ hu => rw [fail_crc, hu.crc]

theorem FailsOrKeeps.peek {s t : State} (h : FailsOrKeeps s t) : t.status.peek = s.status.peek := by
  cases h with
  | keeps hu => exact hu.peek
  | fails _ hu => rw [fail_status_peek, hu.peek]

/-- FAULT and the fault record are the same. -/
def KeepsFault (t s : State) : Prop := t.status.fault = s.status.fault ∧ t.record = s.record

/-- A parse has failed: the fault is recorded with a structural code, and PHASE is FAILED. -/
def ParseFailed (t : State) : Prop :=
  t.status.fault = true ∧ t.status.phase = .failed ∧ t.record.code ∈ structuralCodes

theorem FailsOrKeeps.fault {s t : State} (h : FailsOrKeeps s t) (hf : s.status.fault = false) :
    KeepsFault t s ∨ ParseFailed t := by
  cases h with
  | keeps hu => exact .inl ⟨hu.fault, hu.record⟩
  | fails he hu =>
    refine .inr ⟨fail_status_fault .., fail_status_phase .., ?_⟩
    rwa [fail_record, raise_record (hu.fault.trans hf)]

/-- Of the transitions only SUFCRC writes the CRC unit (R23, R24, R28). -/
theorem transition_crc {s : State} (h : s.status.phase ≠ .sufcrc) : (transition s).crc = s.crc := by
  obtain hk | ⟨hph, -⟩ := transition_cases s
  · exact hk.crc
  · exact absurd hph h

/-- No transition writes BASE, LEN or PEEK (R26, R27, R38). -/
theorem transition_base_len_peek (s : State) :
    (transition s).crc.base = s.crc.base ∧ (transition s).crc.len = s.crc.len ∧
      (transition s).status.peek = s.status.peek := by
  obtain hk | ⟨-, heq⟩ := transition_cases s
  · exact ⟨by rw [hk.crc], by rw [hk.crc], hk.peek⟩
  · rw [heq]; exact ⟨rfl, rfl, rfl⟩

/-- A transition with no fault recorded leaves none, or the parse has failed (R37). -/
theorem transition_fault {s : State} (hf : s.status.fault = false) :
    KeepsFault (transition s) s ∨ ParseFailed (transition s) := by
  obtain hk | ⟨-, heq⟩ := transition_cases s
  · exact hk.fault hf
  · rw [heq]; exact .inl ⟨rfl, rfl⟩

/-- In FAILED a transition changes nothing but OUT_VALID (R141). -/
theorem transition_of_failed {s : State} (h : s.status.phase = .failed) :
    transition s = { s with status := { s.status with outValid := false } } := by
  simp [transition, h]

/-- The loops of PRS.NEXT and PRS.RUN with no fault recorded leave none, or the parse has failed. -/
theorem transitionsUntil_fault {s : State} (hf : s.status.fault = false) (stop : State → Bool) (n : Nat) :
    KeepsFault (transitionsUntil stop n s) s ∨ ParseFailed (transitionsUntil stop n s) := by
  refine transitionsUntil_keeps (P := fun u => KeepsFault u s ∨ ParseFailed u) (fun u hu => ?_) stop n s
    (.inl ⟨rfl, rfl⟩)
  obtain ⟨hfault, hrecord⟩ | ⟨hfault, hphase, hcode⟩ := hu
  · refine (transition_fault (hfault.trans hf)).imp_left fun hk => ?_
    exact ⟨hk.1.trans hfault, hk.2.trans hrecord⟩
  · rw [transition_of_failed hphase]
    exact .inr ⟨hfault, hphase, hcode⟩

/-! ## What the shared operations keep

`f` is a view of the state, mostly one of its fields. That a view does not look at the parts an operation writes is `rfl` for a
field. -/

section
variable {α : Type} {f : State → α}

/-- The view `f` sees neither FAULT nor the fault record nor the responses. -/
def IgnoresFault (f : State → α) : Prop :=
  ∀ (s : State) (r : FaultRecord) (b : Bool) (vs : List Word),
    f { s with record := r, status := { s.status with fault := b }, responses := vs } = f s

theorem raise_keeps (hf : IgnoresFault f) (e : FaultCode) (off exp act : Word) (s : State) :
    f (raise e off exp act s) = f s := by
  unfold raise
  split
  · rfl
  · exact hf s _ _ _

theorem respond_keeps (hf : IgnoresFault f) (v : Word) (s : State) : f (s.respond v) = f s := hf s _ _ _

/-- A command writes a view only if its rule does. -/
theorem exec_keeps (hf : IgnoresFault f) {i : Instr} {s t : State} (h : exec i s = .next t)
    (hrule : f (ruleOf i s) = f s) : f t = f s := by
  obtain ⟨-, heq⟩ | ⟨-, -, -, heq⟩ | ⟨-, -, heq⟩ := exec_cases i s <;> cases heq.symm.trans h
  · exact (respond_keeps hf _ _).trans (raise_keeps hf ..)
  · exact respond_keeps hf _ _
  · exact (respond_keeps hf _ _).trans hrule

theorem wrRule_keeps (hf : IgnoresFault f) {r : Reg} {v : Word} {s : State} (hw : f (s.writeReg r v) = f s) :
    f (wrRule r v s) = f s := by
  unfold wrRule
  split
  · exact raise_keeps hf ..
  · exact hw

theorem crcRangeRule_keeps (hf : IgnoresFault f)
    (hc : ∀ (s : State) (acc cnt : Word), f { s with crc := { s.crc with acc := acc, cnt := cnt } } = f s) (s : State) :
    f (crcRangeRule s) = f s := by
  unfold crcRangeRule
  split
  · exact raise_keeps hf ..
  · exact hc s _ _

theorem inParse_keeps (hf : IgnoresFault f) (i : Instr) {body : State → State} {s : State} (hb : f (body s) = f s) :
    f (inParse i body s) = f s := by
  unfold inParse
  split
  · exact raise_keeps hf ..
  · exact hb

/-- What every transition keeps, the rules of PRS.STEP, PRS.NEXT and PRS.RUN keep. -/
theorem parse_keeps (hf : IgnoresFault f) (ht : ∀ s, f (transition s) = f s) (s : State) {i : Instr}
    (hi : i ∈ [Instr.prsStep, .prsNext, .prsRun]) : f (ruleOf i s) = f s := by
  have loop (stop : State → Bool) : f (transitionsUntil stop transitionLimit s) = f s :=
    transitionsUntil_keeps (P := fun u => f u = f s) (fun u hu => (ht u).trans hu) stop transitionLimit s rfl
  simp only [List.mem_cons, List.not_mem_nil, or_false] at hi
  obtain rfl | rfl | rfl := hi
  · exact inParse_keeps hf .prsStep (ht s)
  · exact inParse_keeps hf .prsNext (loop nextStop)
  · exact inParse_keeps hf .prsRun (loop runStop)

end

/-! ## What each command's rule keeps -/

/-- The configuration, FILE and the port. -/
def State.hostSide (s : State) : Config × Memory × List HostMove := (s.cfg, s.file, s.port)

/-- MATCH and CHECKED (R30, R31). -/
def State.checkFlags (s : State) : Bool × Bool := (s.status.matched, s.status.checked)

/-- The parser's fields of STATUS but PEEK (R32 to R36, R39), and its registers (R43 to R45, R47). -/
def State.parserState (s : State) :
    (Bool × Bool × Bool × Bool × Bool × Phase) × DfuseRegs × SuffixRegs × Descriptor × WalkRegs :=
  ((s.status.crcValid, s.status.warnCrc, s.status.kind, s.status.outValid, s.status.addrKnown, s.status.phase),
    s.dfuse, s.suffix, s.desc, s.walk)

theorem hostSide_ignoresFault : IgnoresFault State.hostSide := fun _ _ _ _ => rfl
theorem checkFlags_ignoresFault : IgnoresFault State.checkFlags := fun _ _ _ _ => rfl
theorem parserState_ignoresFault : IgnoresFault State.parserState := fun _ _ _ _ => rfl
theorem peek_ignoresFault : IgnoresFault fun s => s.status.peek := fun _ _ _ _ => rfl

@[simp] theorem writeReg_hostSide (r : Reg) (v : Word) (s : State) : (s.writeReg r v).hostSide = s.hostSide := by
  simp [State.hostSide]

@[simp] theorem writeReg_checkFlags (r : Reg) (v : Word) (s : State) : (s.writeReg r v).checkFlags = s.checkFlags := by
  simp [State.checkFlags]

@[simp] theorem writeReg_parserState (r : Reg) (v : Word) (s : State) :
    (s.writeReg r v).parserState = s.parserState := by
  simp [State.parserState]

theorem transition_hostSide (s : State) : (transition s).hostSide = s.hostSide := by
  obtain ⟨hcfg, -, hfile, -, hport, -⟩ := transition_outside s
  simp [State.hostSide, hcfg, hfile, hport]

/-- No command writes FILE, the port or the configuration (R61). -/
theorem ruleOf_hostSide (i : Instr) (s : State) : (ruleOf i s).hostSide = s.hostSide := by
  cases i with
  | crcRange => exact crcRangeRule_keeps hostSide_ignoresFault (fun _ _ _ => rfl) s
  | wr r v => exact wrRule_keeps hostSide_ignoresFault (writeReg_hostSide r v s)
  | prsStep | prsNext | prsRun => exact parse_keeps hostSide_ignoresFault transition_hostSide s (by simp)
  | _ => rfl

theorem ruleOf_checkFlags {i : Instr} (hi : i ∉ [Instr.crcInit, .crcCheck, .prsStep, .prsNext, .prsRun, .srst])
    (s : State) : (ruleOf i s).checkFlags = s.checkFlags := by
  cases i with
  | crcRange => exact crcRangeRule_keeps checkFlags_ignoresFault (fun _ _ _ => rfl) s
  | wr r v => exact wrRule_keeps checkFlags_ignoresFault (writeReg_checkFlags r v s)
  | crcInit | crcCheck | prsStep | prsNext | prsRun | srst => simp at hi
  | _ => rfl

theorem ruleOf_parserState {i : Instr} (hi : i ∉ [Instr.prsStart, .prsStep, .prsNext, .prsRun, .srst])
    (s : State) : (ruleOf i s).parserState = s.parserState := by
  cases i with
  | crcRange => exact crcRangeRule_keeps parserState_ignoresFault (fun _ _ _ => rfl) s
  | wr r v => exact wrRule_keeps parserState_ignoresFault (writeReg_parserState r v s)
  | prsStart | prsStep | prsNext | prsRun | srst => simp at hi
  | _ => rfl

theorem ruleOf_peek {i : Instr} (hi : i ∉ [Instr.prsPeek, .srst]) (s : State) :
    (ruleOf i s).status.peek = s.status.peek := by
  cases i with
  | crcRange => exact crcRangeRule_keeps peek_ignoresFault (fun _ _ _ => rfl) s
  | wr r v => exact wrRule_keeps peek_ignoresFault (congrArg Status.peek (writeReg_status s r v))
  | prsStep | prsNext | prsRun =>
    exact parse_keeps peek_ignoresFault (fun u => (transition_base_len_peek u).2.2) s (by simp)
  | prsPeek | srst => simp at hi
  | _ => rfl

/-! ## The registers that WR can write -/

/-- The commands that write a read-write register of R22, as its rule lists them (R23, R24, R26 to R28, R42). -/
def writesReg (r : Reg) : Instr → Bool
  | .srst => true
  | .wr q _ => q == r
  | .crcInit | .crcByte _ | .crcWord _ | .crcRange => r == .acc || r == .cnt
  | .crcLoad _ | .crcResume _ => r == .acc
  | .prsStep | .prsNext | .prsRun => r == .acc || r == .cnt || r == .exp
  | .nop | .crcCheck | .prsStart | .prsPeek | .rd _ | .fclr => false

theorem access_readWrite_cases {r : Reg} (hr : r.access = .readWrite) :
    r = .acc ∨ r = .cnt ∨ r = .base ∨ r = .len ∨ r = .exp ∨ r = .flen := by
  cases r <;> simp_all [Reg.access]

theorem readReg_ignoresFault {r : Reg} (hr : r.access = .readWrite) : IgnoresFault fun s => s.readReg r := by
  intro s rec b vs
  obtain rfl | rfl | rfl | rfl | rfl | rfl := access_readWrite_cases hr <;> rfl

/-- A WR leaves the other read-write registers alone (R171). -/
theorem readReg_writeReg_of_ne {q r : Reg} (hr : r.access = .readWrite) (hne : q ≠ r) (v : Word) (s : State) :
    (s.writeReg q v).readReg r = s.readReg r := by
  cases q with
  | acc | cnt | base | len | exp | flen =>
    obtain rfl | rfl | rfl | rfl | rfl | rfl := access_readWrite_cases hr <;> simp_all [State.writeReg, State.readReg]
  | _ => rfl

theorem transition_readReg {r : Reg} (hr : r = .base ∨ r = .len ∨ r = .flen) (s : State) :
    (transition s).readReg r = s.readReg r := by
  obtain ⟨hbase, hlen, -⟩ := transition_base_len_peek s
  obtain ⟨-, hflen, -⟩ := transition_outside s
  obtain rfl | rfl | rfl := hr
  · exact hbase
  · exact hlen
  · exact hflen

theorem ruleOf_readReg {i : Instr} {r : Reg} (hr : r.access = .readWrite) (hi : writesReg r i = false) (s : State) :
    (ruleOf i s).readReg r = s.readReg r := by
  have hf := readReg_ignoresFault hr
  have hrw := access_readWrite_cases hr
  cases i with
  | srst => cases hi
  | wr q v => exact wrRule_keeps hf (readReg_writeReg_of_ne hr (by simpa [writesReg] using hi) v s)
  | crcRange =>
    refine crcRangeRule_keeps hf (fun u acc cnt => ?_) s
    obtain rfl | rfl | rfl | rfl | rfl | rfl := hrw <;> simp [writesReg] at hi <;> rfl
  | prsStep | prsNext | prsRun =>
    have hkept : r = .base ∨ r = .len ∨ r = .flen := by simp_all [writesReg]
    exact parse_keeps hf (transition_readReg hkept) s (by simp)
  | crcInit | crcByte d | crcWord v | crcLoad v | crcResume v =>
    obtain rfl | rfl | rfl | rfl | rfl | rfl := hrw <;> simp [writesReg] at hi <;> rfl
  | nop | crcCheck | prsStart | prsPeek | rd q | fclr => obtain rfl | rfl | rfl | rfl | rfl | rfl := hrw <;> rfl

/-! ## What sets FAULT -/

/-- The ways a command `i`, performed or illegal in `s`, sets FAULT, with the record it leaves (R37, 60_exceptions.md R191). -/
def RaiseGround (i : Instr) (s t : State) : Prop :=
  (i.legal s.cfg = false ∧ t.record = ⟨.illegalCommand, 0, 0, i.word0⟩) ∨
  (i = .crcRange ∧ s.crc.base.toNat + s.crc.len.toNat > s.flen.toNat ∧
    t.record = ⟨.rangeFault, s.crc.base, s.crc.len, s.flen⟩) ∨
  ((∃ v, i = .wr .flen v) ∧ s.status.phase ∉ [Phase.idle, .done, .failed] ∧
    t.record = ⟨.sequenceError, 0, 0, 0x85600000⟩) ∨
  (i ∈ [Instr.prsStep, .prsNext, .prsRun] ∧ s.status.phase = .idle ∧ t.record = ⟨.sequenceError, 0, 0, i.word0⟩) ∨
  (i ∈ [Instr.prsStep, .prsNext, .prsRun] ∧ s.status.phase ≠ .idle ∧ t.status.phase = .failed ∧
    t.record.code ∈ structuralCodes)

/-- What `i` does to FAULT and the record from a state without a fault. -/
def KeepsOrRaises (i : Instr) (s t : State) : Prop := KeepsFault t s ∨ (t.status.fault = true ∧ RaiseGround i s t)

theorem not_mem_inactive_of_active {p : Phase} (h : p.active = true) : p ∉ [Phase.idle, .done, .failed] := by
  cases p <;> simp_all [Phase.active]

theorem crcRangeRule_fault {s : State} (hf : s.status.fault = false) : KeepsOrRaises .crcRange s (crcRangeRule s) := by
  unfold crcRangeRule
  split
  next hout => exact .inr ⟨raise_status_fault .., .inr (.inl ⟨rfl, hout, raise_record hf ..⟩)⟩
  · exact .inl ⟨rfl, rfl⟩

theorem wrRule_fault {s : State} (hf : s.status.fault = false) (r : Reg) (v : Word) :
    KeepsOrRaises (.wr r v) s (wrRule r v s) := by
  unfold wrRule
  split
  next hbusy =>
    obtain ⟨rfl, hactive⟩ := hbusy
    refine .inr ⟨raise_status_fault .., .inr (.inr (.inl ?_))⟩
    exact ⟨⟨v, rfl⟩, not_mem_inactive_of_active hactive, raise_record hf ..⟩
  · exact .inl ⟨by rw [writeReg_status], by rw [writeReg_record]⟩

theorem inParse_fault {i : Instr} (hi : i ∈ [Instr.prsStep, .prsNext, .prsRun]) {body : State → State} {s : State}
    (hf : s.status.fault = false) (hb : KeepsFault (body s) s ∨ ParseFailed (body s)) :
    KeepsOrRaises i s (inParse i body s) := by
  unfold inParse
  split
  next hidle =>
    exact .inr ⟨raise_status_fault .., .inr (.inr (.inr (.inl ⟨hi, hidle, raise_record hf ..⟩)))⟩
  next hidle =>
    refine hb.imp_right fun ⟨hfault, hphase, hcode⟩ => ?_
    exact ⟨hfault, .inr (.inr (.inr (.inr ⟨hi, hidle, hphase, hcode⟩)))⟩

theorem ruleOf_fault {i : Instr} (hi : i ∉ [Instr.fclr, .srst]) {s : State} (hf : s.status.fault = false) :
    KeepsOrRaises i s (ruleOf i s) := by
  cases i with
  | crcRange => exact crcRangeRule_fault hf
  | wr r v => exact wrRule_fault hf r v
  | prsStep => exact inParse_fault (by simp) hf (transition_fault hf)
  | prsNext => exact inParse_fault (by simp) hf (transitionsUntil_fault hf nextStop transitionLimit)
  | prsRun => exact inParse_fault (by simp) hf (transitionsUntil_fault hf runStop transitionLimit)
  | fclr | srst => simp at hi
  | _ => exact .inl ⟨rfl, rfl⟩

/-- Of the commands that run in a fault, only FCLR and SRST touch FAULT or the record (R195, R199). -/
theorem ruleOf_keepsFault_of_runsInFault {i : Instr} (hi : i ∉ [Instr.fclr, .srst]) (hr : runsInFault i = true)
    (s : State) : KeepsFault (ruleOf i s) s := by
  cases i with
  | nop | rd r | prsPeek => exact ⟨rfl, rfl⟩
  | fclr | srst => simp at hi
  | _ => cases hr

/-- Everything a command but FCLR and SRST can do to FAULT and the record: keep them, or raise where no fault was. -/
theorem exec_fault {i : Instr} {s t : State} (h : exec i s = .next t) (hi : i ∉ [Instr.fclr, .srst]) :
    KeepsFault t s ∨ (s.status.fault = false ∧ t.status.fault = true ∧ RaiseGround i s t) := by
  cases hf : s.status.fault with
  | false =>
    simp only [true_and]
    obtain ⟨hlegal, heq⟩ | ⟨-, hrej, -⟩ | ⟨-, -, heq⟩ := exec_cases i s
    · cases heq.symm.trans h
      exact .inr ⟨raise_status_fault .., .inl ⟨hlegal, raise_record hf ..⟩⟩
    · simp [hf] at hrej
    · cases heq.symm.trans h
      exact ruleOf_fault hi hf
  | true =>
    refine .inl ?_
    obtain ⟨-, heq⟩ | ⟨-, -, -, heq⟩ | ⟨-, hruns, heq⟩ := exec_cases i s <;> cases heq.symm.trans h
    · rw [illegalCommand, raise_of_fault hf]
      exact ⟨rfl, rfl⟩
    · exact ⟨rfl, rfl⟩
    · exact ruleOf_keepsFault_of_runsInFault hi (hruns.resolve_left (by simp [hf])) s

/-- FCLR and SRST leave no fault (R173, R174). -/
theorem exec_fault_cleared {i : Instr} {s t : State} (h : exec i s = .next t) (hi : i ∈ [Instr.fclr, .srst]) :
    t.status.fault = false := by
  simp only [List.mem_cons, List.not_mem_nil, or_false] at hi
  have hlegal : i.legal s.cfg = true := by
    obtain rfl | rfl := hi <;> simp [Instr.legal, Instr.wellFormed, Instr.isParser]
  have hruns : runsInFault i = true := by obtain rfl | rfl := hi <;> rfl
  rw [exec_eq_runCommand, runCommand_performs hlegal (.inr hruns)] at h
  cases h
  obtain rfl | rfl := hi <;> rfl

/-! ## The two statements -/

/-- A command changes the parser's fields of STATUS and its registers only if it is one of their writers. -/
theorem exec_parserState {i : Instr} {s t : State} (h : exec i s = .next t)
    (hi : i ∉ [Instr.prsStart, .prsStep, .prsNext, .prsRun, .srst]) :
    (t.status.crcValid = s.status.crcValid ∧ t.status.warnCrc = s.status.warnCrc ∧ t.status.kind = s.status.kind ∧
      t.status.outValid = s.status.outValid ∧ t.status.addrKnown = s.status.addrKnown ∧
      t.status.phase = s.status.phase) ∧
    t.dfuse = s.dfuse ∧ t.suffix = s.suffix ∧ t.desc = s.desc ∧ t.walk = s.walk := by
  simpa only [State.parserState, Prod.mk.injEq] using exec_keeps parserState_ignoresFault h (ruleOf_parserState hi s)

/-- Settles O53: the flags' views are kept by every rule but their writers', and `exec_fault` says what sets FAULT. -/
theorem flagsChangeOnlyByTheirWriters : Obligations.FlagsChangeOnlyByTheirWriters := by
  intro i s t h
  refine ⟨fun hi => ?_, fun hi => ?_, fun hi => ?_, fun hi hf => ?_, fun hf ht => ?_⟩
  · have hkept := exec_keeps checkFlags_ignoresFault h (ruleOf_checkFlags hi s)
    exact ⟨congrArg Prod.fst hkept, congrArg Prod.snd hkept⟩
  · exact (exec_parserState h hi).1
  · exact exec_keeps peek_ignoresFault h (ruleOf_peek hi s)
  · obtain ⟨hkept, -⟩ | ⟨hclear, -⟩ := exec_fault h hi
    · exact hkept.trans hf
    · simp [hf] at hclear
  · have hi : i ∉ [Instr.fclr, .srst] := fun hi => by simp [exec_fault_cleared h hi] at ht
    obtain ⟨hkept, -⟩ | ⟨-, -, hground⟩ := exec_fault h hi
    · simp [hkept, hf] at ht
    · exact hground

/-- A command changes a read-write register only if it is one of its writers. -/
theorem exec_readReg {i : Instr} {s t : State} (h : exec i s = .next t) {r : Reg} (hr : r.access = .readWrite)
    (hi : writesReg r i = false) : t.readReg r = s.readReg r :=
  exec_keeps (readReg_ignoresFault hr) h (ruleOf_readReg hr hi s)

/-- PRS.STEP outside SUFCRC leaves the CRC unit alone. -/
theorem exec_prsStep_crc {s t : State} (h : exec .prsStep s = .next t) (hph : s.status.phase ≠ .sufcrc) :
    t.crc = s.crc :=
  exec_keeps (f := State.crc) (fun _ _ _ _ => rfl) h
    (inParse_keeps (f := State.crc) (fun _ _ _ _ => rfl) .prsStep (transition_crc hph))

/-- Settles O54: each register's view is kept by every rule but its writers', and a record changes only where FAULT is raised or
cleared. -/
theorem registersChangeOnlyByTheirWriters : Obligations.RegistersChangeOnlyByTheirWriters := by
  intro i s t h
  have hhost := exec_keeps hostSide_ignoresFault h (ruleOf_hostSide i s)
  simp only [State.hostSide, Prod.mk.injEq] at hhost
  obtain ⟨hcfg, hfile, hport⟩ := hhost
  refine ⟨hcfg, hfile, hport, fun hbyte hval hi => exec_readReg h (r := .acc) rfl ?acc,
    fun hbyte hval hi => exec_readReg h (r := .cnt) rfl ?cnt, ?step,
    fun hwr hi => exec_readReg h (r := .base) rfl ?base, fun hwr hi => exec_readReg h (r := .len) rfl ?len,
    fun hwr hi => exec_readReg h (r := .exp) rfl ?exp, fun hwr hi => exec_readReg h (r := .flen) rfl ?flen,
    fun hi => (exec_parserState h hi).2, fun hi hf => ?record⟩
  case step =>
    rintro rfl
    exact exec_prsStep_crc h
  case record =>
    obtain ⟨-, hkept⟩ | ⟨hclear, hset, -⟩ := exec_fault h hi
    · exact hkept
    · simp [hclear, hset] at hf
  case acc | cnt | base | len | exp | flen => cases i <;> simp_all [writesReg]

end Sys2Proof.Machine
end

section
/-!
SUPPORT. What the readers of FILE depend on (20_memory.md R62, R64): a field's value from its bytes, and that a command reads no
byte at or above FLEN.
-/

namespace Sys2Proof.Machine

/-! ## A field's value -/

/-- The n-byte field at `a` as the sum that R64 writes. -/
def Memory.fieldSum (m : Memory) (a n : Nat) : Nat :=
  ((List.range n).map (fun i => (m.read (a + i)).toNat * 2 ^ (8 * i))).sum

/-- The first byte is the least significant one. -/
theorem Memory.fieldSum_succ (m : Memory) (a n : Nat) :
    m.fieldSum a (n + 1) = (m.read a).toNat + 2 ^ 8 * m.fieldSum (a + 1) n := by
  have hshift (i : Nat) : 2 ^ (8 * (i + 1)) = 2 ^ 8 * 2 ^ (8 * i) := by rw [← Nat.pow_add]; congr 1; omega
  simp only [Memory.fieldSum, List.range_succ_eq_map, List.map_cons, List.map_map, List.sum_cons, ← List.sum_map_mul_left,
    Nat.mul_zero, Nat.pow_zero, Nat.mul_one, Nat.add_zero]
  congr 3
  funext i
  simp only [Function.comp_apply, Nat.succ_eq_add_one, hshift, Nat.add_assoc, Nat.add_comm 1 i]
  exact Nat.mul_left_comm _ _ _

theorem Memory.fieldSum_lt (m : Memory) (a n : Nat) : m.fieldSum a n < 2 ^ (8 * n) := by
  induction n generalizing a with
  | zero => simp [Memory.fieldSum]
  | succ n ih =>
    have hbyte : (m.read a).toNat < 2 ^ 8 := (m.read a).isLt
    have hrest := ih (a + 1)
    rw [Memory.fieldSum_succ, Nat.mul_add, Nat.pow_add]
    omega

/-- A field that fits in a word is the sum of its bytes (R64). -/
theorem Memory.readLE_toNat (m : Memory) {n : Nat} (hn : n ≤ 4) (a : Nat) : (m.readLE a n).toNat = m.fieldSum a n := by
  induction n generalizing a with
  | zero => rfl
  | succ n ih =>
    have hbyte : (m.read a).toNat < 2 ^ 8 := (m.read a).isLt
    have hrest : m.fieldSum (a + 1) n < 2 ^ 24 :=
      (m.fieldSum_lt (a + 1) n).trans_le (Nat.pow_le_pow_right (by decide) (by omega))
    rw [Memory.fieldSum_succ, Memory.readLE, BitVec.toNat_add, BitVec.toNat_shiftLeft, BitVec.toNat_setWidth,
      ih (by omega) (a + 1), Nat.shiftLeft_eq]
    omega

/-- Settles O49: 1, 2 and 4 bytes fit in a word. -/
theorem fileFieldsAreLittleEndian : Obligations.FileFieldsAreLittleEndian := by
  intro m a n hn
  have hle : n ≤ 4 := by simp only [List.mem_cons, List.not_mem_nil, or_false] at hn; omega
  exact m.readLE_toNat hle a

/-! ## The readers of FILE look only at the bytes they name -/

/-- The two FILEs hold the same bytes below `k`. -/
def Memory.AgreesBelow (m : Memory) (k : Nat) (m' : Memory) : Prop := ∀ a, a < k → m.read a = m'.read a

section
variable {m m' : Memory} {k : Nat}

theorem Memory.AgreesBelow.readLE (h : m.AgreesBelow k m') {a n : Nat} (hk : a + n ≤ k) :
    m.readLE a n = m'.readLE a n := by
  induction n generalizing a with
  | zero => rfl
  | succ n ih => rw [Memory.readLE, Memory.readLE, h a (by omega), ih (by omega)]

theorem Memory.AgreesBelow.mismatch (h : m.AgreesBelow k m') {a : Nat} {bs : List Byte} (hk : a + bs.length ≤ k) :
    m.mismatch a bs = m'.mismatch a bs := by
  induction bs generalizing a with
  | nil => rfl
  | cons b bs ih =>
    rw [List.length_cons] at hk
    rw [Memory.mismatch, Memory.mismatch, h a (by omega), ih (by omega)]

theorem Memory.AgreesBelow.isDfuse (h : m.AgreesBelow k m') (hk : 5 ≤ k) : m.isDfuse = m'.isDfuse := by
  rw [Memory.isDfuse, Memory.isDfuse, h.mismatch hk]

theorem Memory.AgreesBelow.absorb (h : m.AgreesBelow k m') {a n : Nat} (hk : a + n ≤ k) (acc : Word) :
    m.absorb a n acc = m'.absorb a n acc := by
  have hbytes : (List.range' a n).map m.read = (List.range' a n).map m'.read :=
    List.map_congr_left fun x hx => h x (by rw [List.mem_range'_1] at hx; omega)
  rw [Memory.absorb_eq, Memory.absorb_eq, hbytes]

/-- The suffix lies in the 16 bytes it begins (R69). -/
theorem Memory.AgreesBelow.suffixAt (h : m.AgreesBelow k m') {p : Nat} (hk : p + 16 ≤ k) :
    suffixAt m p = suffixAt m' p := by
  simp only [Machine.suffixAt, h (p + 11) (by omega), h.readLE (a := p + 2) (n := 2) (by omega),
    h.readLE (a := p + 0) (n := 2) (by omega), h.readLE (a := p + 6) (n := 2) (by omega),
    h.readLE (a := p + 4) (n := 2) (by omega), h.readLE (a := p + 12) (n := 4) (by omega)]

/-- The fields of a target header lie in its `270 + nb` bytes (R71). -/
theorem Memory.AgreesBelow.targetHdrAt (h : m.AgreesBelow k m') {nb p : Nat} (hk : p + (270 + nb) ≤ k) :
    targetHdrAt m nb p = targetHdrAt m' nb p := by
  simp only [Machine.targetHdrAt, h (p + 6) (by omega), h.readLE (a := p + 7) (n := nb) (by omega),
    h.readLE (a := p + 262 + nb) (n := 4) (by omega), h.readLE (a := p + 266 + nb) (n := 4) (by omega)]

end

/-! ## Another FILE in the same state -/

/-- `s` with another FILE. -/
def State.withFile (s : State) (m : Memory) : State := { s with file := m }

section
variable (s : State) (m : Memory)

@[simp] theorem withFile_cfg : (s.withFile m).cfg = s.cfg := rfl
@[simp] theorem withFile_crc : (s.withFile m).crc = s.crc := rfl
@[simp] theorem withFile_status : (s.withFile m).status = s.status := rfl
@[simp] theorem withFile_flen : (s.withFile m).flen = s.flen := rfl
@[simp] theorem withFile_walk : (s.withFile m).walk = s.walk := rfl
@[simp] theorem withFile_file : (s.withFile m).file = m := rfl
@[simp] theorem withFile_bodyEnd : (s.withFile m).bodyEnd = s.bodyEnd := rfl

variable {s m} in
/-- A choice made alike with both FILEs. -/
theorem ite_withFile {c c' : Prop} [Decidable c] [Decidable c'] {x y x' y' : State} (hc : c' ↔ c)
    (hx : c → x' = x.withFile m) (hy : ¬ c → y' = y.withFile m) :
    (if c' then x' else y') = (if c then x else y).withFile m := by
  by_cases h : c
  · rw [if_pos h, if_pos (hc.2 h), hx h]
  · rw [if_neg h, if_neg (mt hc.1 h), hy h]

theorem raise_withFile (e : FaultCode) (off exp act : Word) :
    raise e off exp act (s.withFile m) = (raise e off exp act s).withFile m :=
  ite_withFile Iff.rfl (fun _ => rfl) (fun _ => rfl)

variable {s m} in
theorem fail_withFile {s' : State} (e : FaultCode) (off exp act : Word) (hs : s' = s.withFile m := by rfl) :
    fail e off exp act s' = (fail e off exp act s).withFile m := by
  subst hs
  exact congrArg (State.setPhase .failed) (raise_withFile s m e off exp act)

theorem writeReg_withFile (r : Reg) (v : Word) : (s.withFile m).writeReg r v = (s.writeReg r v).withFile m := by
  cases r <;> rfl

theorem wrRule_withFile (r : Reg) (v : Word) : wrRule r v (s.withFile m) = (wrRule r v s).withFile m :=
  ite_withFile Iff.rfl (fun _ => raise_withFile ..) (fun _ => writeReg_withFile ..)

theorem answerOf_withFile (i : Instr) : answerOf i (s.withFile m) = answerOf i s := by
  cases i with
  | rd r => cases r <;> rfl
  | _ => rfl

theorem illegalCommand_withFile (w0 : Word) : illegalCommand w0 (s.withFile m) = (illegalCommand w0 s).withFile m := by
  unfold illegalCommand
  rw [raise_withFile]
  rfl

end

/-! ## A transition reads FILE below FLEN -/

/-- Where a transition reads FILE without checking a bound against FLEN itself, the bound holds (R131, R146). -/
structure State.ReadsInFile (s : State) : Prop where
  bodyRead : s.status.phase ∈ [Phase.sufcrc, .dfusePrefix] → 16 ≤ s.flen.toNat
  spanRead : s.status.phase = .element → s.walk.tend.toNat ≤ s.flen.toNat

/-- The bounds that the invariant gives (`State.BodyInv`, `State.WalkInv`). -/
theorem State.Inv.readsInFile {s : State} (h : s.Inv) : s.ReadsInFile := by
  obtain ⟨-, -, -, -, -, -, hbody, ⟨-, hspan, -⟩, -, -⟩ := h
  refine ⟨fun hph => hbody ?_, fun hph => ?_⟩
  · revert hph; cases s.status.phase <;> decide
  · obtain ⟨-, htend, -⟩ := hspan (by simp [hph])
    exact Nat.le_of_add_right_le htend

theorem readsInFile_of_phase {s : State} (h : s.status.phase ∉ [Phase.sufcrc, .dfusePrefix, .element]) :
    s.ReadsInFile := by
  simp only [List.mem_cons, List.not_mem_nil, or_false, not_or] at h
  exact ⟨by simp [h], by simp [h]⟩

theorem fail_readsInFile (e : FaultCode) (off exp act : Word) (s : State) : (fail e off exp act s).ReadsInFile :=
  readsInFile_of_phase (by simp)

theorem transSuffix_readsInFile (s : State) : (transSuffix s).ReadsInFile := by
  unfold transSuffix
  dsimp only
  split
  · exact fail_readsInFile ..
  next hlen =>
    split
    · exact fail_readsInFile ..
    · exact ⟨fun _ => Nat.le_of_not_lt hlen, fun hph => by cases hph⟩

theorem transPrefix_readsInFile (s : State) : (transPrefix s).ReadsInFile := by
  unfold transPrefix
  dsimp only
  split
  · split
    · exact fail_readsInFile ..
    · split
      · exact fail_readsInFile ..
      · split
        · exact fail_readsInFile ..
        · exact readsInFile_of_phase (by simp)
  · exact readsInFile_of_phase (by simp)

theorem targetSpan_readsInFile (b : Nat) (h : TargetHdr) (s : State) : (targetSpan b h s).ReadsInFile := by
  unfold targetSpan
  split
  · exact fail_readsInFile ..
  next hspan =>
    refine ⟨fun hph => ?_, fun _ => ?_⟩
    · simp only [targetEnter, setPhase_status_phase] at hph
      split at hph <;> simp at hph
    · have hmod := Nat.mod_le (b + h.tsize.toNat) (2 ^ 32)
      simp only [State.bodyEnd, Config.suffixLen] at hspan
      simp only [targetEnter, targetLatch, setPhase_walk, setPhase_flen, ← Nat.cast_add, narrow_natCast,
        BitVec.toNat_ofNat]
      omega

theorem transTarget_readsInFile (s : State) : (transTarget s).ReadsInFile := by
  unfold transTarget
  dsimp only
  split
  · exact fail_readsInFile ..
  · split
    · exact fail_readsInFile ..
    · exact targetSpan_readsInFile ..

theorem transElement_readsInFile {s : State} (h : s.walk.tend.toNat ≤ s.flen.toNat) : (transElement s).ReadsInFile := by
  unfold transElement
  dsimp only
  split
  · exact fail_readsInFile ..
  · split
    · exact fail_readsInFile ..
    · refine ⟨fun hph => ?_, fun _ => h⟩
      dsimp only at hph
      split at hph <;> simp at hph

theorem transTclose_readsInFile (s : State) : (transTclose s).ReadsInFile := by
  unfold transTclose
  split
  · exact fail_readsInFile ..
  · refine readsInFile_of_phase ?_
    rw [setPhase_status_phase]
    split <;> decide

/-- Every transition keeps the bounds, so a loop of transitions stays within them. -/
theorem transition_readsInFile {s : State} (h : s.ReadsInFile) : (transition s).ReadsInFile := by
  unfold transition
  dsimp only
  split
  next => exact transSuffix_readsInFile _
  next hph => exact ⟨fun _ => h.bodyRead (by simp [hph]), fun hph' => by cases hph'⟩
  next => exact transPrefix_readsInFile _
  next => exact readsInFile_of_phase (by simp [transPlain])
  next => exact transTarget_readsInFile _
  next hph => exact transElement_readsInFile (h.spanRead hph)
  next => exact transTclose_readsInFile _
  all_goals exact ⟨h.bodyRead, h.spanRead⟩

section
variable {s : State} {m : Memory}

theorem transSuffix_withFile (h : m.AgreesBelow s.flen.toNat s.file) :
    transSuffix (s.withFile m) = (transSuffix s).withFile m := by
  refine ite_withFile Iff.rfl (fun _ => fail_withFile ..) (fun hlen => ?_)
  dsimp only [withFile_flen, withFile_file, Config.suffixLen] at hlen ⊢
  rw [h.suffixAt (by omega), h.mismatch (by simp [sigSuffix]; omega)]
  split
  · exact fail_withFile ..
  · rfl

theorem transSufcrc_withFile (h : m.AgreesBelow s.flen.toNat s.file) :
    transSufcrc (s.withFile m) = (transSufcrc s).withFile m := by
  unfold transSufcrc
  dsimp only [withFile_flen, withFile_file]
  rw [h.absorb (by omega)]
  rfl

theorem transPrefix_withFile (h : m.AgreesBelow s.flen.toNat s.file) (hlen : 16 ≤ s.flen.toNat) :
    transPrefix (s.withFile m) = (transPrefix s).withFile m := by
  have hdfuse : (s.withFile m).file.isDfuse = s.file.isDfuse := h.isDfuse (by omega)
  have hisize : (s.withFile m).file.readLE 6 4 = s.file.readLE 6 4 := h.readLE (by omega)
  have hpver : (s.withFile m).file.read 5 = s.file.read 5 := h 5 (by omega)
  have htcnt : (s.withFile m).file.read 10 = s.file.read 10 := h 10 (by omega)
  unfold transPrefix
  dsimp only
  rw [hdfuse, hisize, hpver, htcnt]
  refine ite_withFile Iff.rfl (fun _ => ?_) (fun _ => rfl)
  refine ite_withFile Iff.rfl (fun _ => fail_withFile ..) (fun _ => ?_)
  refine ite_withFile Iff.rfl (fun _ => fail_withFile ..) (fun _ => ?_)
  exact ite_withFile Iff.rfl (fun _ => fail_withFile ..) (fun _ => rfl)

theorem targetSpan_withFile (b : Nat) (h : TargetHdr) :
    targetSpan b h (s.withFile m) = (targetSpan b h s).withFile m :=
  ite_withFile Iff.rfl (fun _ => fail_withFile ..) (fun _ => rfl)

theorem transTarget_withFile (h : m.AgreesBelow s.flen.toNat s.file) :
    transTarget (s.withFile m) = (transTarget s).withFile m := by
  refine ite_withFile Iff.rfl (fun _ => fail_withFile ..) (fun hhdr => ?_)
  dsimp only [withFile_cfg, withFile_walk, withFile_file, State.bodyEnd, Config.suffixLen, Config.targetHdrLen] at hhdr ⊢
  rw [h.mismatch (by simp [sigTarget]; omega), h.targetHdrAt (by omega)]
  split
  · exact fail_withFile ..
  · exact targetSpan_withFile ..

theorem transElement_withFile (h : m.AgreesBelow s.flen.toNat s.file) (hspan : s.walk.tend.toNat ≤ s.flen.toNat) :
    transElement (s.withFile m) = (transElement s).withFile m := by
  refine ite_withFile Iff.rfl (fun _ => fail_withFile ..) (fun hhdr => ?_)
  have haddr : (s.withFile m).file.readLE (s.withFile m).walk.cur.toNat 4 = s.file.readLE s.walk.cur.toNat 4 :=
    h.readLE (by rw [withFile_walk]; omega)
  have hsize : (s.withFile m).file.readLE ((s.withFile m).walk.cur.toNat + 4) 4 =
      s.file.readLE (s.walk.cur.toNat + 4) 4 :=
    h.readLE (by rw [withFile_walk]; omega)
  dsimp only
  rw [haddr, hsize]
  exact ite_withFile Iff.rfl (fun _ => fail_withFile ..) (fun _ => rfl)

theorem transTclose_withFile : transTclose (s.withFile m) = (transTclose s).withFile m :=
  ite_withFile Iff.rfl (fun _ => fail_withFile ..) (fun _ => rfl)

/-- A transition reads no byte at or above FLEN (R62). -/
theorem transition_withFile (h : m.AgreesBelow s.flen.toNat s.file) (hs : s.ReadsInFile) :
    transition (s.withFile m) = (transition s).withFile m := by
  unfold transition
  simp only [withFile_status]
  split
  next => exact transSuffix_withFile (s := { s with status := _ }) h
  next => exact transSufcrc_withFile (s := { s with status := _ }) h
  next hph => exact transPrefix_withFile (s := { s with status := _ }) h (hs.bodyRead (by simp [hph]))
  next => rfl
  next => exact transTarget_withFile (s := { s with status := _ }) h
  next hph => exact transElement_withFile (s := { s with status := _ }) h (hs.spanRead hph)
  next => exact transTclose_withFile (s := { s with status := _ })
  all_goals rfl

/-- A loop whose stop condition does not look at FILE reads no byte at or above FLEN. -/
theorem transitionsUntil_withFile {stop : State → Bool} (hstop : ∀ u, stop (u.withFile m) = stop u) (n : Nat)
    (h : m.AgreesBelow s.flen.toNat s.file) (hs : s.ReadsInFile) :
    transitionsUntil stop n (s.withFile m) = (transitionsUntil stop n s).withFile m := by
  induction n generalizing s with
  | zero => rfl
  | succ n ih =>
    obtain ⟨-, hflen, hfile, -⟩ := transition_outside s
    rw [transitionsUntil, transitionsUntil, transition_withFile h hs, hstop]
    split
    · rfl
    · exact ih (by rwa [hflen, hfile]) (transition_readsInFile hs)

/-! ## A command reads FILE below FLEN -/

theorem inParse_withFile (i : Instr) {body : State → State} (hb : body (s.withFile m) = (body s).withFile m) :
    inParse i body (s.withFile m) = (inParse i body s).withFile m :=
  ite_withFile Iff.rfl (fun _ => raise_withFile ..) (fun _ => hb)

theorem crcRangeRule_withFile (h : m.AgreesBelow s.flen.toNat s.file) :
    crcRangeRule (s.withFile m) = (crcRangeRule s).withFile m := by
  refine ite_withFile Iff.rfl (fun _ => raise_withFile ..) (fun hin => ?_)
  dsimp only [withFile_crc, withFile_file]
  rw [h.absorb (Nat.le_of_not_lt hin)]
  rfl

/-- Fewer than five bytes are not compared (R144). -/
theorem prsPeekRule_withFile (h : m.AgreesBelow s.flen.toNat s.file) :
    prsPeekRule (s.withFile m) = (prsPeekRule s).withFile m := by
  have hread : (decide (5 ≤ s.flen.toNat) && m.isDfuse) = (decide (5 ≤ s.flen.toNat) && s.file.isDfuse) := by
    by_cases hlen : 5 ≤ s.flen.toNat
    · rw [h.isDfuse hlen]
    · simp [hlen]
  exact congrArg (fun b => ({ s with status := { s.status with peek := b } } : State).withFile m) hread

theorem ruleOf_withFile (i : Instr) (h : m.AgreesBelow s.flen.toNat s.file) (hs : s.ReadsInFile) :
    ruleOf i (s.withFile m) = (ruleOf i s).withFile m := by
  cases i with
  | crcRange => exact crcRangeRule_withFile h
  | prsStep => exact inParse_withFile .prsStep (transition_withFile h hs)
  | prsNext => exact inParse_withFile .prsNext (transitionsUntil_withFile (fun _ => rfl) transitionLimit h hs)
  | prsRun => exact inParse_withFile .prsRun (transitionsUntil_withFile (fun _ => rfl) transitionLimit h hs)
  | prsPeek => exact prsPeekRule_withFile h
  | wr r v => exact wrRule_withFile s m r v
  | _ => rfl

/-- A command does the same, but for FILE, with another FILE that agrees below FLEN. -/
theorem exec_withFile {i : Instr} {t : State} (h : m.AgreesBelow s.flen.toNat s.file) (hs : s.ReadsInFile)
    (ht : exec i s = .next t) : exec i (s.withFile m) = .next (t.withFile m) := by
  rw [exec_eq_runCommand]
  obtain ⟨hlegal, heq⟩ | ⟨hlegal, hf, hr, heq⟩ | ⟨hlegal, hruns, heq⟩ := exec_cases i s <;> cases heq.symm.trans ht
  · rw [runCommand_illegal (s := s.withFile m) hlegal, illegalCommand_withFile]
  · rw [runCommand_rejected (s := s.withFile m) hlegal hf hr]
    rfl
  · rw [runCommand_performs (s := s.withFile m) hlegal hruns, ruleOf_withFile i h hs, answerOf_withFile]
    rfl

end

/-- Settles O57: the invariant keeps the unchecked reads of a parse below FLEN, and every other read is checked. -/
theorem nothingDependsOnBytesPastFlen : Obligations.NothingDependsOnBytesPastFlen :=
  fun _ _ _ _ hinv hagree hexec => exec_withFile hagree hinv.readsInFile hexec

end Sys2Proof.Machine
end

section
/-!
SUPPORT. The encoding (30_encoding.md): the fields of a word (R80), which words match a row of the opcode map (R81, R84), what such a
word decodes to, and the statements on the decoder and the encoder.
-/

namespace Sys2Proof

/-! ## The fields of a word -/

/-- The field RSV, bits 20:8 (R80). -/
def rsvOf (w : Word) : BitVec 13 := w.extractLsb' 8 13

/-- The four fields are the whole word (R80). -/
theorem append_fields (w : Word) : opcOf w ++ regOf w ++ rsvOf w ++ imm8Of w = w := by
  rw [opcOf, regOf, rsvOf, imm8Of, BitVec.extractLsb'_append_extractLsb'_eq_extractLsb' (by rfl),
    BitVec.extractLsb'_append_extractLsb'_eq_extractLsb' (by rfl),
    BitVec.extractLsb'_append_extractLsb'_eq_extractLsb' (by rfl)]
  exact BitVec.extractLsb'_eq_self

theorem word_eq_iff {w w' : Word} :
    w = w' ↔ opcOf w = opcOf w' ∧ regOf w = regOf w' ∧ rsvOf w = rsvOf w' ∧ imm8Of w = imm8Of w' := by
  refine ⟨by rintro rfl; simp, fun ⟨hopc, hreg, hrsv, himm⟩ => ?_⟩
  rw [← append_fields w, ← append_fields w', hopc, hreg, hrsv, himm]

section
variable (opc : BitVec 6) (reg : BitVec 5) (imm8 : Byte)

@[simp] theorem opcOf_packWord : opcOf (packWord opc reg imm8) = opc :=
  calc BitVec.extractLsb' 26 6 (opc ++ reg ++ 0#13 ++ imm8)
    _ = BitVec.extractLsb' 18 6 (opc ++ reg ++ 0#13) := BitVec.extractLsb'_append_eq_of_le (by decide)
    _ = BitVec.extractLsb' 5 6 (opc ++ reg) := BitVec.extractLsb'_append_eq_of_le (by decide)
    _ = opc := BitVec.extractLsb'_append_eq_left

@[simp] theorem regOf_packWord : regOf (packWord opc reg imm8) = reg :=
  calc BitVec.extractLsb' 21 5 (opc ++ reg ++ 0#13 ++ imm8)
    _ = BitVec.extractLsb' 13 5 (opc ++ reg ++ 0#13) := BitVec.extractLsb'_append_eq_of_le (by decide)
    _ = BitVec.extractLsb' 0 5 (opc ++ reg) := BitVec.extractLsb'_append_eq_of_le (by decide)
    _ = reg := BitVec.extractLsb'_append_eq_right

@[simp] theorem rsvOf_packWord : rsvOf (packWord opc reg imm8) = 0 :=
  calc BitVec.extractLsb' 8 13 (opc ++ reg ++ 0#13 ++ imm8)
    _ = BitVec.extractLsb' 0 13 (opc ++ reg ++ 0#13) := BitVec.extractLsb'_append_eq_of_le (by decide)
    _ = 0 := BitVec.extractLsb'_append_eq_right

@[simp] theorem imm8Of_packWord : imm8Of (packWord opc reg imm8) = imm8 := BitVec.extractLsb'_append_eq_right

end

/-! ## Matching a row of the opcode map -/

/-- The formats with the operand REG (R81). -/
def Format.hasReg : Format → Bool
  | .r | .rw => true
  | .n | .b | .w => false

/-- The formats with the operand IMM8 (R81). -/
def Format.hasImm8 : Format → Bool
  | .b => true
  | .n | .r | .w | .rw => false

/-- The word 0 of a row with the operand fields of `w`, where its format has them (R81). -/
def OpRow.word (r : OpRow) (w : Word) : Word :=
  packWord r.opc (if r.fmt.hasReg then regOf w else 0) (if r.fmt.hasImm8 then imm8Of w else 0)

/-- A format's mask keeps OPC, RSV and every field that is not an operand (R81). -/
theorem fields_and_mask (w : Word) (f : Format) :
    opcOf (w &&& f.mask) = opcOf w ∧ regOf (w &&& f.mask) = (if f.hasReg then 0 else regOf w) ∧
    rsvOf (w &&& f.mask) = rsvOf w ∧ imm8Of (w &&& f.mask) = if f.hasImm8 then 0 else imm8Of w := by
  have hmask : opcOf f.mask = BitVec.allOnes 6 ∧ regOf f.mask = (if f.hasReg then 0 else BitVec.allOnes 5) ∧
      rsvOf f.mask = BitVec.allOnes 13 ∧ imm8Of f.mask = if f.hasImm8 then 0 else BitVec.allOnes 8 := by
    cases f <;> decide
  rw [opcOf, regOf, rsvOf, imm8Of] at hmask
  simp only [opcOf, regOf, rsvOf, imm8Of, BitVec.extractLsb'_and, hmask]
  refine ⟨BitVec.and_allOnes, ?_, BitVec.and_allOnes, ?_⟩
  all_goals
    split
    · exact BitVec.and_zero
    · exact BitVec.and_allOnes

/-- A word matches a row exactly if it is the row's OPC, its operands and zeros (R81, R84). -/
theorem and_mask_eq_pattern_iff (r : OpRow) (w : Word) : w &&& r.fmt.mask = r.pattern ↔ w = r.word w := by
  obtain ⟨hopc, hreg, hrsv, himm⟩ := fields_and_mask w r.fmt
  rw [word_eq_iff, word_eq_iff (w := w), hopc, hreg, hrsv, himm]
  cases hr : r.fmt.hasReg <;> cases hi : r.fmt.hasImm8 <;> simp [OpRow.word, OpRow.pattern, hr, hi]

theorem opcOf_of_matches {r : OpRow} {w : Word} (h : w &&& r.fmt.mask = r.pattern) : opcOf w = r.opc := by
  rw [(and_mask_eq_pattern_iff r w).1 h, OpRow.word, opcOf_packWord]

/-- No two rows have the same OPC (R84). -/
theorem rowOf_opc : ∀ r ∈ opTable, rowOf r.opc = some r := by decide

theorem mem_opTable_of_rowOf {opc : BitVec 6} {r : OpRow} (h : rowOf opc = some r) : r ∈ opTable :=
  List.mem_of_find?_eq_some h

/-! ## The decoder -/

/-- A word decodes exactly if it matches a row, and then to the row's command (R81, R83, R84). -/
theorem decodeWords_eq_ok_iff (w0 v : Word) (i : Instr) :
    decodeWords w0 v = .ok i ↔ ∃ r ∈ opTable, w0 &&& r.fmt.mask = r.pattern ∧ r.op.build w0 v = i := by
  unfold decodeWords
  constructor
  · intro h
    split at h
    · cases h
    next r hrow =>
      split at h
      next hmatch => exact ⟨r, mem_opTable_of_rowOf hrow, hmatch, Except.ok.inj h⟩
      · cases h
  · rintro ⟨r, hr, hmatch, rfl⟩
    simp [opcOf_of_matches hmatch, rowOf_opc r hr, hmatch]

@[simp] theorem num_ofNum : ∀ n : BitVec 5, (Reg.ofNum n).num = n := by decide

@[simp] theorem ofNum_num (r : Reg) : Reg.ofNum r.num = r := by cases r <;> rfl

/-- The row's command has the row's word 0 as its own, and a second word where OPC says so (R81 to R84). -/
theorem words_build {r : OpRow} (hr : r ∈ opTable) (w0 v : Word) :
    (r.op.build w0 v).word0 = r.word w0 ∧
    (r.op.build w0 v).word1 = if isTwoWord (r.word w0) then some v else none := by
  rw [OpRow.word, Laws.EncodeLength.isTwoWord_packWord]
  simp only [opTable, List.cons_append, List.nil_append, List.mem_cons, List.not_mem_nil, or_false] at hr
  rcases hr with rfl | rfl | rfl | rfl | rfl | rfl | rfl | rfl | rfl | rfl | rfl | rfl | rfl | rfl | rfl | rfl | rfl
  all_goals exact ⟨by simp [Op.build, Instr.word0, Format.hasReg, Format.hasImm8], rfl⟩

/-- Settles O2: a word that decodes is its row's word, and so is the first word of the row's command. -/
theorem decodedWordsAreTheEncoding : Obligations.DecodedWordsAreTheEncoding := by
  intro w0 v i h
  obtain ⟨r, hr, hmatch, rfl⟩ := (decodeWords_eq_ok_iff w0 v i).1 h
  have hw0 : r.word w0 = w0 := ((and_mask_eq_pattern_iff r w0).1 hmatch).symm
  simpa only [hw0] using words_build hr w0 v

/-- A row's OPC with the operands of its format decodes to the row's command (R81, R84). -/
theorem decodeWords_packWord {r : OpRow} (hr : r ∈ opTable) {reg : BitVec 5} {imm8 : Byte}
    (hreg : r.fmt.hasReg = false → reg = 0) (himm : r.fmt.hasImm8 = false → imm8 = 0) (v : Word) :
    decodeWords (packWord r.opc reg imm8) v = .ok (r.op.build (packWord r.opc reg imm8) v) := by
  refine (decodeWords_eq_ok_iff _ _ _).2 ⟨r, hr, (and_mask_eq_pattern_iff _ _).2 ?_, rfl⟩
  have hregWord : (if r.fmt.hasReg then reg else 0) = reg :=
    ite_eq_left_iff.2 fun h => (hreg (Bool.eq_false_of_not_eq_true h)).symm
  have himmWord : (if r.fmt.hasImm8 then imm8 else 0) = imm8 :=
    ite_eq_left_iff.2 fun h => (himm (Bool.eq_false_of_not_eq_true h)).symm
  rw [OpRow.word, regOf_packWord, imm8Of_packWord, hregWord, himmWord]

/-- The first word of a command, with its second word if it has one, decodes to the command (R81, R83, R84). -/
theorem decodeWords_word0 (i : Instr) (v : Word) : decodeWords i.word0 (i.word1.getD v) = .ok i := by
  cases i with
  | crcByte d =>
    exact (decodeWords_packWord (r := ⟨0x02, .crcByte, .b⟩) (by decide) (fun _ => rfl) nofun v).trans
      (by simp only [Op.build, imm8Of_packWord])
  | rd r =>
    exact (decodeWords_packWord (r := ⟨0x20, .rd, .r⟩) (by decide) nofun (fun _ => rfl) v).trans
      (by simp only [Op.build, regOf_packWord, ofNum_num])
  | wr r u =>
    exact (decodeWords_packWord (r := ⟨0x21, .wr, .rw⟩) (by decide) nofun (fun _ => rfl) u).trans
      (by simp only [Op.build, regOf_packWord, ofNum_num])
  | crcWord u =>
    exact decodeWords_packWord (r := ⟨0x03, .crcWord, .w⟩) (by decide) (fun _ => rfl) (fun _ => rfl) u
  | crcLoad u =>
    exact decodeWords_packWord (r := ⟨0x06, .crcLoad, .w⟩) (by decide) (fun _ => rfl) (fun _ => rfl) u
  | crcResume u =>
    exact decodeWords_packWord (r := ⟨0x07, .crcResume, .w⟩) (by decide) (fun _ => rfl) (fun _ => rfl) u
  | _ => rfl

/-- A command's encoding is one word or two, as OPC says, and these decode to it (R82, R89). -/
theorem encode_cases (i : Instr) :
    (encode i = [i.word0] ∧ isTwoWord i.word0 = false ∧ decodeWords i.word0 0 = .ok i) ∨
    (∃ v, encode i = [i.word0, v] ∧ isTwoWord i.word0 = true ∧ decodeWords i.word0 v = .ok i) := by
  have hdecode := decodeWords_word0 i 0
  obtain ⟨-, hword1⟩ := decodedWordsAreTheEncoding _ _ _ hdecode
  rw [encode]
  cases hw : i.word1 with
  | none =>
    rw [hw] at hdecode hword1
    exact .inl ⟨rfl, by simpa using hword1, hdecode⟩
  | some v =>
    rw [hw] at hdecode hword1
    exact .inr ⟨v, rfl, by simpa using hword1, hdecode⟩

theorem decode_of_one_word {w0 : Word} (h : isTwoWord w0 = false) (rest : List Word) :
    decode (w0 :: rest) = (decodeWords w0 0).map fun i => (i, rest) := by
  cases rest <;> simp [decode, h]

theorem decode_of_two_words {w0 : Word} (h : isTwoWord w0 = true) (v : Word) (rest : List Word) :
    decode (w0 :: v :: rest) = (decodeWords w0 v).map fun i => (i, rest) := by
  simp [decode, h]

/-- Settles O1: the command's one word or two decode to it, and `decode` takes as many. -/
theorem decodeOfEncodeIsTheCommand : Obligations.DecodeOfEncodeIsTheCommand := by
  intro i rest
  obtain ⟨hencode, hone, hdecode⟩ | ⟨v, hencode, htwo, hdecode⟩ := encode_cases i
  · rw [hencode, List.singleton_append, decode_of_one_word hone, hdecode]
    rfl
  · rw [hencode, List.cons_append, List.singleton_append, decode_of_two_words htwo, hdecode]
    rfl

/-- The table that the claims write out is the machine's opcode map (R84). -/
theorem matchAndMask_eq : matchAndMask = opTable.map fun r => (r.pattern, r.fmt.mask) := by decide

/-- The words of a command's shape (R81, R84). -/
theorem exists_decodeWords_iff (w0 v : Word) :
    (∃ i, decodeWords w0 v = .ok i) ↔ ∃ r ∈ matchAndMask, w0 &&& r.2 = r.1 := by
  simp only [decodeWords_eq_ok_iff, matchAndMask_eq, List.mem_map]
  constructor
  · rintro ⟨_, r, hr, hmatch, -⟩
    exact ⟨_, ⟨r, hr, rfl⟩, hmatch⟩
  · rintro ⟨_, ⟨r, hr, rfl⟩, hmatch⟩
    exact ⟨_, r, hr, hmatch, rfl⟩

/-- Two rows that match one word have its OPC, so they are one row (R84). -/
theorem row_unique {w : Word} {r r' : OpRow} (hr : r ∈ opTable) (hr' : r' ∈ opTable)
    (h : w &&& r.fmt.mask = r.pattern) (h' : w &&& r'.fmt.mask = r'.pattern) : r = r' := by
  have hopc : r.opc = r'.opc := (opcOf_of_matches h).symm.trans (opcOf_of_matches h')
  exact Option.some.inj ((rowOf_opc r hr).symm.trans (hopc ▸ rowOf_opc r' hr'))

/-- The OPC values that R86 reserves have no row. -/
theorem rowOf_reserved : ∀ opc : BitVec 6,
    0x08 ≤ opc.toNat ∧ opc.toNat ≤ 0x0F ∨ 0x15 ≤ opc.toNat ∧ opc.toNat ≤ 0x1F ∨
      0x22 ≤ opc.toNat ∧ opc.toNat ≤ 0x3D → rowOf opc = none := by
  decide

/-- Settles O3: a word decodes exactly if it matches its OPC's row. -/
theorem shapesAreTheRowsOfTheOpcodeMap : Obligations.ShapesAreTheRowsOfTheOpcodeMap := by
  refine ⟨exists_decodeWords_iff, fun w r r' hr hr' h h' => ?_, ?_⟩
  · rw [matchAndMask_eq, List.mem_map] at hr hr'
    obtain ⟨q, hq, rfl⟩ := hr
    obtain ⟨q', hq', rfl⟩ := hr'
    rw [row_unique hq hq' h h']
  · intro w0 v o ho
    rw [decodeWords, rowOf_reserved _ ho]

/-- Settles O4: the six words are the encoder's word 0 of their commands. -/
theorem wordsOfTheMapDecode : Obligations.WordsOfTheMapDecode :=
  ⟨decodeWords_word0 (.crcByte 0x61) 0, decodeWords_word0 (.crcWord 0x34333231) 0, decodeWords_word0 .prsStep 0,
    decodeWords_word0 (.rd .res) 0, decodeWords_word0 (.wr .flen 317) 0, decodeWords_word0 .srst 0⟩

end Sys2Proof
end

section
/-!
SUPPORT. The command port (30_encoding.md R82, R85, R87, R88): what a step does with a delivered word, what an executed command keeps
and responds, and the statements on them.
-/

namespace Sys2Proof.Machine

/-! ## A step takes a move -/

/-- The outcome of what taking a move leads to. -/
def Fetched.outcome : Fetched → Host.Outcome State Fault Refusal
  | .run i t => exec i t
  | .settled o => o

theorem step_eq_outcome (s : State) : step s = (takeMove s).outcome := by
  unfold step
  cases takeMove s <;> rfl

theorem execute_outcome_of_ok {w0 v : Word} {i : Instr} (h : decodeWords w0 v = .ok i) (s : State) :
    (execute w0 v s).outcome = exec i s := by
  simp [execute, h, Fetched.outcome]

theorem execute_outcome_of_error {w0 v : Word} {e : DecodeError} (h : decodeWords w0 v = .error e) (s : State) :
    (execute w0 v s).outcome = .next (s.afterIllegal w0) := by
  simp [execute, h, Fetched.outcome, illegalCommand_eq_afterIllegal]

section
variable {s : State} {w : Word} {rest : List HostMove}

/-- A one-word command's word is executed by itself (R82, R87). -/
theorem step_of_one_word (hport : s.port = .word w :: rest) (hpend : s.pend = none) (hw : isTwoWord w = false) :
    step s = (execute w 0 { s with port := rest }).outcome := by
  simp [step_eq_outcome, takeMove_word hport, onWord, hpend, hw]

/-- The first word of a two-word command waits in PEND (R82, R87). -/
theorem step_of_first_word (hport : s.port = .word w :: rest) (hpend : s.pend = none) (hw : isTwoWord w = true) :
    step s = .next { s with port := rest, pend := some w } := by
  simp [step_eq_outcome, takeMove_word hport, onWord, hpend, hw, Fetched.outcome]

/-- The word after it is its operand, whatever it is (R82, R87). -/
theorem step_of_operand {w0 : Word} (hport : s.port = .word w :: rest) (hpend : s.pend = some w0) :
    step s = (execute w0 w { s with port := rest, pend := none }).outcome := by
  simp [step_eq_outcome, takeMove_word hport, onWord, hpend]

end

/-- Settles O5: what the step executes decodes. -/
theorem stepRunsTheDecodedCommand : Obligations.StepRunsTheDecodedCommand := by
  refine ⟨fun s w rest i hport hpend hw hi => ?_, fun s w rest hport hpend hw => step_of_first_word hport hpend hw,
    fun s w0 v rest i hport hpend hi => ?_⟩
  · rw [step_of_one_word hport hpend hw, execute_outcome_of_ok hi]
  · rw [step_of_operand hport hpend, execute_outcome_of_ok hi]

/-! ## The port and PEND after a command -/

theorem pend_ignoresFault : IgnoresFault State.pend := fun _ _ _ _ => rfl

/-- No command fills PEND (R50). -/
theorem ruleOf_pend (i : Instr) {s : State} (h : s.pend = none) : (ruleOf i s).pend = none := by
  have kept {t : State} (ht : t.pend = s.pend) : t.pend = none := ht.trans h
  cases i with
  | crcRange => exact kept (crcRangeRule_keeps pend_ignoresFault (fun _ _ _ => rfl) s)
  | wr r v => exact kept (wrRule_keeps pend_ignoresFault (writeReg_pend s r v))
  | prsStep | prsNext | prsRun =>
    refine kept (parse_keeps pend_ignoresFault (fun u => ?_) s (by simp))
    obtain ⟨-, -, -, hpend, -⟩ := transition_outside u
    exact hpend
  | srst => rfl
  | _ => exact h

/-- A command always answers, takes nothing from the port and leaves PEND empty. -/
theorem exec_keeps_port (i : Instr) {s : State} (h : s.pend = none) :
    ∃ t, exec i s = .next t ∧ t.port = s.port ∧ t.pend = none := by
  obtain ⟨t, ht⟩ : ∃ t, exec i s = .next t := by
    obtain ⟨-, heq⟩ | ⟨-, -, -, heq⟩ | ⟨-, -, heq⟩ := exec_cases i s <;> exact ⟨_, heq⟩
  have hhost := exec_keeps hostSide_ignoresFault ht (ruleOf_hostSide i s)
  simp only [State.hostSide, Prod.mk.injEq] at hhost
  obtain ⟨-, -, hport⟩ := hhost
  have hpend := exec_keeps pend_ignoresFault ht ((ruleOf_pend i h).trans h.symm)
  exact ⟨t, ht, hport, hpend.trans h⟩

theorem afterIllegal_port (w0 : Word) (s : State) : (s.afterIllegal w0).port = s.port := by
  simp [← illegalCommand_eq_afterIllegal, illegalCommand]

theorem afterIllegal_pend (w0 : Word) (s : State) : (s.afterIllegal w0).pend = s.pend := by
  simp [← illegalCommand_eq_afterIllegal, illegalCommand]

/-- Executed words, legal or not, take nothing more from the port and leave PEND empty. -/
theorem execute_keeps_port (w0 v : Word) {s : State} (h : s.pend = none) :
    ∃ t, (execute w0 v s).outcome = .next t ∧ t.port = s.port ∧ t.pend = none := by
  cases hd : decodeWords w0 v with
  | ok i => simpa only [execute_outcome_of_ok hd] using exec_keeps_port i h
  | error e =>
    exact ⟨_, execute_outcome_of_error hd s, afterIllegal_port w0 s, (afterIllegal_pend w0 s).trans h⟩

/-- The four OPC values of two words (R82). -/
theorem isTwoWord_iff (w : Word) : isTwoWord w = true ↔ (opcOf w).toNat ∈ [0x03, 0x06, 0x07, 0x21] := by
  simp [isTwoWord, ← BitVec.toNat_inj, or_assoc]

/-- Settles O6: OPC decides between the first word of two and a word by itself. -/
theorem lengthIsDecidedByOpcAlone : Obligations.LengthIsDecidedByOpcAlone := by
  refine ⟨isTwoWord_iff, fun s w v rest hport hpend => ?_⟩
  simp only [← isTwoWord_iff]
  split
  next htwo =>
    obtain ⟨u, hu, hkept⟩ := execute_keeps_port w v (s := { s with port := rest, pend := none }) rfl
    exact ⟨_, u, step_of_first_word hport hpend htwo, rfl, (step_of_operand rfl rfl).trans hu, hkept⟩
  next hone =>
    obtain ⟨t, ht, hkept⟩ := execute_keeps_port w 0 (s := { s with port := .word v :: rest }) hpend
    exact ⟨t, (step_of_one_word hport hpend (Bool.eq_false_of_not_eq_true hone)).trans ht, hkept⟩

/-! ## Illegal commands -/

/-- Whether two words decode does not depend on the second (R85). -/
theorem decodeWords_error {w0 v : Word} {e : DecodeError} (h : decodeWords w0 v = .error e) (v' : Word) :
    decodeWords w0 v' = .error e := by
  unfold decodeWords at h ⊢
  split at h
  · exact h
  · split at h
    · cases h
    next hmatch => rwa [if_neg hmatch]

/-- A delivered word of no command raises IllegalCommand, whatever word follows it (R85). -/
theorem step_deliver_of_error {w0 v : Word} {e : DecodeError} (h : decodeWords w0 v = .error e) (s : State) :
    step (s.deliver w0 v) = .next ({ s with pend := none }.afterIllegal w0) := by
  unfold State.deliver
  split
  next => rw [step_of_operand rfl rfl, execute_outcome_of_error h]
  next hone =>
    rw [step_of_one_word rfl rfl (Bool.eq_false_of_not_eq_true hone), execute_outcome_of_error (decodeWords_error h 0)]

/-- Registers 12 to 29 are the parser's (R22). -/
theorem isParser_of_num {r : Reg} (h : 12 ≤ r.num.toNat ∧ r.num.toNat ≤ 29) : r.isParser = true := by
  revert h
  cases r <;> decide

theorem existsIn_eq_false {c : Config} {r : Reg}
    (h : r.num = 31 ∨ (c.hasParser = false ∧ 12 ≤ r.num.toNat ∧ r.num.toNat ≤ 29)) : r.existsIn c = false := by
  obtain h | ⟨hc, hr⟩ := h
  · have hr31 : r = .r31 := (ofNum_num r).symm.trans (congrArg Reg.ofNum h)
    simp [hr31, Reg.existsIn]
  · simp [Reg.existsIn, hc, isParser_of_num hr]

theorem access_ne_readWrite {r : Reg} (h : r.num ∉ [0, 1, 3, 4, 5, 11]) : r.access ≠ .readWrite := by
  intro hr
  obtain rfl | rfl | rfl | rfl | rfl | rfl := access_readWrite_cases hr <;> simp [Reg.num] at h

/-- Settles O7: grounds (a) and (b) by the decoder, grounds (c) to (e) by `Instr.legal`. -/
theorem illegalCommandsOnlyRaise : Obligations.IllegalCommandsOnlyRaise := by
  refine ⟨fun s w0 v h => ?_, fun s r h => exec_illegal ?_, fun s r v h => exec_illegal ?_,
    fun s i hc hi => exec_illegal ?_⟩
  · cases hd : decodeWords w0 v with
    | ok i =>
      obtain ⟨r, hr, hmatch⟩ := (exists_decodeWords_iff w0 v).1 ⟨i, hd⟩
      exact absurd hmatch (h r hr)
    | error e => exact step_deliver_of_error hd s
  · simp [Instr.legal, existsIn_eq_false h]
  · simp [Instr.legal, Instr.wellFormed, access_ne_readWrite h]
  · have hparser : i.isParser = true := by
      simp only [List.mem_cons, List.not_mem_nil, or_false] at hi
      obtain rfl | rfl | rfl | rfl | rfl := hi <;> rfl
    simp [Instr.legal, hc, hparser]

end Sys2Proof.Machine
end

section
/-!
SUPPORT. Responses (30_encoding.md R88) and the pseudo-instruction CRC.COMPUTE (R90): what a command responds, and that a list of
commands delivered word by word does what `execAll` says.
-/

namespace Sys2Proof.Machine

/-! ## Responses -/

theorem crcRangeRule_responses (s : State) : (crcRangeRule s).responses = s.responses := by
  unfold crcRangeRule
  split
  · exact raise_responses ..
  · rfl

theorem wrRule_responses (r : Reg) (v : Word) (s : State) : (wrRule r v s).responses = s.responses := by
  unfold wrRule
  split
  · exact raise_responses ..
  · exact writeReg_responses ..

theorem inParse_responses (i : Instr) {body : State → State} {s : State} (h : (body s).responses = s.responses) :
    (inParse i body s).responses = s.responses := by
  unfold inParse
  split
  · exact raise_responses ..
  · exact h

/-- No command's rule responds: the response comes after it (R87, R88). -/
theorem ruleOf_responses (i : Instr) (s : State) : (ruleOf i s).responses = s.responses := by
  have one (u : State) : (transition u).responses = u.responses := by
    obtain ⟨-, -, -, -, -, hresponses⟩ := transition_outside u
    exact hresponses
  have loop (stop : State → Bool) : (transitionsUntil stop transitionLimit s).responses = s.responses :=
    transitionsUntil_keeps (P := fun u => u.responses = s.responses) (fun u hu => (one u).trans hu) _ _ _ rfl
  cases i with
  | crcRange => exact crcRangeRule_responses s
  | wr r v => exact wrRule_responses r v s
  | prsStep => exact inParse_responses .prsStep (one s)
  | prsNext => exact inParse_responses .prsNext (loop nextStop)
  | prsRun => exact inParse_responses .prsRun (loop runStop)
  | _ => rfl

theorem illegalCommand_responses (w0 : Word) (s : State) :
    (illegalCommand w0 s).responses = s.responses ++ [(illegalCommand w0 s).statusWord] := by
  rw [illegalCommand, respondStatus_responses, raise_responses]
  rfl

theorem answerOf_of_ne_rd {i : Instr} (h : ∀ r, i ≠ .rd r) (s : State) : answerOf i s = s.statusWord := by
  cases i with
  | rd r => exact absurd rfl (h r)
  | _ => rfl

/-- STATUS is 0 after a reset (R22). -/
theorem statusWord_resetIn (c : Config) : (State.resetIn c).statusWord = 0 := by
  obtain ⟨x, n, p⟩ := c
  cases x <;> cases n <;> cases p <;> decide

/-- What a command responds in `s` when it leads to `t`: the register for a RD that reads, STATUS otherwise, 0 after SRST (R88). -/
def RespondsWith (i : Instr) (s t : State) (v : Word) : Prop :=
  (∀ r, i = .rd r → i.legal s.cfg = true → v = s.readReg r) ∧
  (¬ (∃ r, i = .rd r ∧ i.legal s.cfg = true) → v = t.statusWord) ∧
  (i = .srst → v = 0)

theorem respondsWith_illegal {i : Instr} {s : State} (h : i.legal s.cfg = false) (t : State) :
    RespondsWith i s t t.statusWord := by
  refine ⟨fun r _ hl => ?_, fun _ => rfl, ?_⟩
  · simp [h] at hl
  · rintro rfl
    simp [Instr.legal, Instr.wellFormed, Instr.isParser] at h

theorem respondsWith_rejected {i : Instr} (h : runsInFault i = false) (s t : State) :
    RespondsWith i s t t.statusWord := by
  refine ⟨?_, fun _ => rfl, ?_⟩
  · rintro r rfl
    cases h
  · rintro rfl
    cases h

theorem respondsWith_performed {i : Instr} {s : State} (h : i.legal s.cfg = true) :
    RespondsWith i s ((ruleOf i s).respond (answerOf i (ruleOf i s))) (answerOf i (ruleOf i s)) := by
  refine ⟨?_, fun hrd => ?_, ?_⟩
  · rintro r rfl -
    rfl
  · rw [respond_statusWord]
    exact answerOf_of_ne_rd (fun r hr => hrd ⟨r, hr, h⟩) _
  · rintro rfl
    exact statusWord_resetIn s.cfg

/-- Settles O8: the three things a command can do each append one response, and a word of no command is an illegal one. -/
theorem everyCommandRespondsOnce : Obligations.EveryCommandRespondsOnce := by
  refine ⟨fun i s => ?_, fun s w v e he => ⟨_, step_deliver_of_error he s, ?_⟩,
    fun s w rest hport hpend hw => ⟨_, step_of_first_word hport hpend hw, rfl⟩⟩
  · obtain ⟨hl, heq⟩ | ⟨-, -, hr, heq⟩ | ⟨hl, -, heq⟩ := exec_cases i s
    · exact ⟨_, _, heq, illegalCommand_responses .., respondsWith_illegal hl _⟩
    · exact ⟨_, _, heq, rfl, respondsWith_rejected hr _ _⟩
    · exact ⟨_, _, heq, by rw [respond_responses, ruleOf_responses], respondsWith_performed hl⟩
  · rw [← illegalCommand_eq_afterIllegal]
    exact illegalCommand_responses ..

/-! ## Commands delivered word by word -/

theorem run_succ {s t : State} (h : step s = .next t) (n : Nat) :
    Host.Core.run core (n + 1) s = Host.Core.run core n t := by
  have hcore : core.step s = .next t := h
  simp [Host.Core.run, hcore]

/-- The moves that deliver these commands (R89). -/
def delivery (is : List Instr) : List HostMove := (is.flatMap encode).map .word

/-- The words of one command take one step each, and then it has been executed (R87). -/
theorem run_encode {i : Instr} {is : List Instr} {s t : State} (hpend : s.pend = none)
    (hport : s.port = delivery (i :: is)) (ht : exec i { s with port := delivery is } = .next t) (n : Nat) :
    Host.Core.run core ((encode i).length + n) s = Host.Core.run core n t := by
  rw [delivery, List.flatMap_cons, List.map_append] at hport
  obtain ⟨hencode, hone, hdecode⟩ | ⟨v, hencode, htwo, hdecode⟩ := encode_cases i
  · rw [hencode] at hport
    rw [hencode, List.length_singleton, Nat.add_comm]
    have hstep : step s = .next t := by
      rw [step_of_one_word hport hpend hone, execute_outcome_of_ok hdecode]
      exact ht
    exact run_succ hstep n
  · rw [hencode] at hport
    rw [hencode, List.length_cons, List.length_singleton, Nat.add_comm]
    refine (run_succ (step_of_first_word hport hpend htwo) (n + 1)).trans (run_succ ?_ n)
    rw [step_of_operand rfl rfl, execute_outcome_of_ok hdecode, ← hpend]
    exact ht

/-- `s` with these CRC registers and flags, these commands to come, and these responses given. -/
def State.serving (s : State) (crc : CrcRegs) (status : Status) (is : List Instr) (rs : List Word) : State :=
  { s with crc := crc, status := status, port := delivery is, responses := s.responses ++ rs }

/-- A legal command, no fault being recorded, takes its words, performs its rule and responds. -/
theorem run_serving {s : State} {crc crc' : CrcRegs} {status status' : Status} {i : Instr} {is : List Instr}
    {rs : List Word} (hpend : s.pend = none) (hlegal : i.legal s.cfg = true) (hfault : status.fault = false)
    (hrule : ruleOf i (s.serving crc status is rs) = s.serving crc' status' is rs) (n : Nat) :
    Host.Core.run core ((encode i).length + n) (s.serving crc status (i :: is) rs) =
      Host.Core.run core n (s.serving crc' status' is (rs ++ [answerOf i (s.serving crc' status' is rs)])) := by
  refine run_encode (s := s.serving crc status (i :: is) rs) hpend rfl ?_ n
  have hexec := runCommand_performs (s := s.serving crc status is rs) hlegal (.inl hfault) (ruleOf i) (answerOf i)
  have hrespond (v : Word) : (s.serving crc' status' is rs).respond v = s.serving crc' status' is (rs ++ [v]) := by
    rw [State.serving, State.serving, ← List.append_assoc]
    rfl
  rw [hrule, hrespond] at hexec
  exact (exec_eq_runCommand i _).trans hexec

theorem crcRangeRule_in_file {s : State} (h : s.crc.base.toNat + s.crc.len.toNat ≤ s.flen.toNat) :
    crcRangeRule s =
      { s with crc := { s.crc with acc := absorbed s.crc.acc (s.file.bytes s.crc.base.toNat s.crc.len.toNat)
                                   cnt := s.crc.cnt + s.crc.len } } := by
  rw [crcRangeRule, if_neg (Nat.not_lt.2 h), Memory.absorb_eq, crcFold_eq_absorbed, Memory.bytes]

theorem legal_of_mem_compute {base len : Word} {i : Instr} (h : i ∈ (Pseudo.compute base len).expand) (c : Config) :
    i.legal c = true := by
  simp only [Pseudo.expand, List.mem_cons, List.not_mem_nil, or_false] at h
  obtain rfl | rfl | rfl | rfl | rfl := h <;>
    simp [Instr.legal, Instr.wellFormed, Reg.access, Instr.isParser, Reg.existsIn, Reg.isParser]

/-- The commands of CRC.COMPUTE one after the other, each with the CRC registers and flags it leaves (R90). -/
theorem run_compute {s : State} {base len : Word} (hpend : s.pend = none) (hfault : s.status.fault = false)
    (hin : base.toNat + len.toNat ≤ s.flen.toNat) :
    ∃ v₁ v₂ v₃ v₄, Host.Core.run core 7 (s.serving s.crc s.status (Pseudo.compute base len).expand []) =
      .next (s.serving
        ⟨absorbed Config.init (s.file.bytes base.toNat len.toNat), 0 + len, base, len, s.crc.exp⟩ s.status.clearCheck []
        [v₁, v₂, v₃, v₄, compute s.cfg (s.file.bytes base.toNat len.toNat)]) := by
  have hlegal (i : Instr) (h : i ∈ (Pseudo.compute base len).expand) := legal_of_mem_compute h s.cfg
  simp only [Pseudo.expand, List.forall_mem_cons] at hlegal
  obtain ⟨hbase, hlen, hinit, hrange, hrd, -⟩ := hlegal
  have hclear : s.status.clearCheck.fault = false := hfault
  exact ⟨_, _, _, _, calc
    _ = Host.Core.run core 5 (s.serving { s.crc with base := base } s.status
          [.wr .len len, .crcInit, .crcRange, .rd .res] _) := run_serving hpend hbase hfault rfl 5
    _ = Host.Core.run core 3 (s.serving { s.crc with base := base, len := len } s.status
          [.crcInit, .crcRange, .rd .res] _) := run_serving hpend hlen hfault rfl 3
    _ = Host.Core.run core 2 (s.serving ⟨Config.init, 0, base, len, s.crc.exp⟩ s.status.clearCheck
          [.crcRange, .rd .res] _) := run_serving hpend hinit hfault rfl 2
    _ = Host.Core.run core 1 (s.serving
          ⟨absorbed Config.init (s.file.bytes base.toNat len.toNat), 0 + len, base, len, s.crc.exp⟩ s.status.clearCheck
          [.rd .res] _) := run_serving hpend hrange hclear (by exact crcRangeRule_in_file hin) 1
    _ = _ := run_serving hpend hrd hclear rfl 0⟩

/-- Settles O24: the last of the five responses is RES after the range. -/
theorem crcComputeAnswersTheCrc : Obligations.CrcComputeAnswersTheCrc := by
  intro s base len hpend hfault hin hport
  have hstart : s = s.serving s.crc s.status (Pseudo.compute base len).expand [] := by
    rw [State.serving, delivery, ← hport, List.append_nil]
  obtain ⟨v₁, v₂, v₃, v₄, hrun⟩ := run_compute hpend hfault hin
  rw [← hstart] at hrun
  exact ⟨_, _, hrun, rfl, rfl, rfl, hfault⟩

end Sys2Proof.Machine
end

section
/-!
SUPPORT. The CRC family, command by command (40_crc.md R104 to R111): its words, its rejection, what it does and leaves
unchanged, and the statements on them.
-/

namespace Sys2Proof.Machine

/-! ## The words of a command -/

/-- A delivered word with a row's OPC that does not match the row raises IllegalCommand (R85 (b)). -/
theorem step_deliver_of_not_matching {r : OpRow} (hr : r ∈ opTable) {w : Word} (hopc : opcOf w = r.opc)
    (hw : w &&& r.fmt.mask ≠ r.pattern) (v : Word) (s : State) :
    step (s.deliver w v) = .next ({ s with pend := none }.afterIllegal w) := by
  have herr : decodeWords w v = .error .reservedField := by simp [decodeWords, hopc, rowOf_opc r hr, hw]
  exact step_deliver_of_error herr s

/-- A row without operands in word 0 has one word 0 (R81). -/
theorem step_deliver_of_ne_pattern {r : OpRow} (hr : r ∈ opTable) (hmask : r.fmt.mask = BitVec.allOnes 32) {w : Word}
    (hopc : opcOf w = r.opc) (hw : w ≠ r.pattern) (v : Word) (s : State) :
    step (s.deliver w v) = .next ({ s with pend := none }.afterIllegal w) :=
  step_deliver_of_not_matching hr hopc (by rwa [hmask, BitVec.and_allOnes]) v s

/-- IMM8 is the low byte of word 0 (R80). -/
theorem packWord_imm8 (opc : BitVec 6) (reg : BitVec 5) (d : Byte) :
    packWord opc reg d = packWord opc reg 0 ||| d.setWidth 32 := by
  rw [packWord, packWord, BitVec.append_def, BitVec.append_def _ (0 : Byte)]
  simp

/-! ## Performed or rejected -/

/-- NOP and the CRC.* commands (R104 to R111). -/
def isCrcFamily : Instr → Bool
  | .nop | .crcInit | .crcByte _ | .crcWord _ | .crcRange | .crcCheck | .crcLoad _ | .crcResume _ => true
  | .prsStart | .prsStep | .prsNext | .prsRun | .prsPeek | .rd _ | .wr _ _ | .fclr | .srst => false

theorem legal_of_isCrcFamily {i : Instr} (h : isCrcFamily i = true) (c : Config) : i.legal c = true := by
  cases i <;> simp_all [isCrcFamily, Instr.legal, Instr.wellFormed, Instr.isParser]

theorem legal_wr {r : Reg} (h : r.access = .readWrite) (v : Word) (c : Config) : (Instr.wr r v).legal c = true := by
  obtain rfl | rfl | rfl | rfl | rfl | rfl := access_readWrite_cases h <;>
    simp [Instr.legal, Instr.wellFormed, Reg.access, Instr.isParser, Reg.existsIn, Reg.isParser]

section
variable {i : Instr} {s : State}

theorem exec_rejected (hl : i.legal s.cfg = true) (hr : runsInFault i = false) (hf : s.status.fault = true) :
    exec i s = .next s.respondStatus := by
  rw [exec_eq_runCommand, runCommand_rejected hl hf hr]

/-- A legal command that is not rejected and is no RD does its rule and responds STATUS (R87, R88). -/
theorem exec_performed (hl : i.legal s.cfg = true) (hrd : ∀ r, i ≠ .rd r)
    (hf : s.status.fault = false ∨ runsInFault i = true) : exec i s = .next (ruleOf i s).respondStatus := by
  rw [exec_eq_runCommand, runCommand_performs hl hf, answerOf_of_ne_rd hrd]
  rfl

theorem exec_crc_rejected (h : isCrcFamily i = true) (hr : runsInFault i = false) (hf : s.status.fault = true) :
    exec i s = .next s.respondStatus :=
  exec_rejected (legal_of_isCrcFamily h _) hr hf

theorem exec_crc_performed (h : isCrcFamily i = true) (hf : s.status.fault = false) :
    exec i s = .next (ruleOf i s).respondStatus :=
  exec_performed (legal_of_isCrcFamily h _) (by rintro r rfl; cases h) (.inl hf)

end

/-! ## NOP, CRC.INIT and CRC.BYTE -/

/-- Settles O14: NOP runs in a fault too, and its rule does nothing. -/
theorem nopOnlyResponds : Obligations.NopOnlyResponds := by
  intro s
  refine ⟨rfl, exec_performed (legal_of_isCrcFamily rfl _) (by rintro r ⟨⟩) (.inr rfl), fun w v hopc hw => ?_⟩
  exact step_deliver_of_ne_pattern (r := ⟨0x00, .nop, .n⟩) (by decide) rfl hopc hw v s

/-- Settles O15: the rule is the statement's pseudocode. -/
theorem crcInitSetsTheAccumulator : Obligations.CrcInitSetsTheAccumulator := by
  intro s
  refine ⟨rfl, fun w v hopc hw => ?_, exec_crc_rejected rfl rfl, exec_crc_performed rfl⟩
  exact step_deliver_of_ne_pattern (r := ⟨0x01, .crcInit, .n⟩) (by decide) rfl hopc hw v s

/-- Settles O16: IMM8 is the only operand of word 0, and one byte is absorbed. -/
theorem crcByteAbsorbsOneByte : Obligations.CrcByteAbsorbsOneByte := by
  intro d s
  refine ⟨congrArg (fun w => [w]) (packWord_imm8 0x02 0 d), fun w v hopc hw => ?_, exec_crc_rejected rfl rfl,
    exec_crc_performed rfl⟩
  exact step_deliver_of_not_matching (r := ⟨0x02, .crcByte, .b⟩) (by decide) hopc hw v s

/-! ## CRC.WORD -/

/-- The bytes of the word that four FILE bytes make are those bytes (R65, R107). -/
theorem wordBytes_readLE (m : Memory) (a : Nat) :
    wordBytes (m.readLE a 4) = [m.read a, m.read (a + 1), m.read (a + 2), m.read (a + 3)] := by
  have hbyte (k : Nat) : (m.read k).toNat < 256 := (m.read k).isLt
  have h0 := hbyte a
  have h1 := hbyte (a + 1)
  have h2 := hbyte (a + 2)
  have h3 := hbyte (a + 3)
  have hsum : (m.readLE a 4).toNat = (m.read a).toNat + 2 ^ 8 * (m.read (a + 1)).toNat +
      2 ^ 16 * (m.read (a + 2)).toNat + 2 ^ 24 * (m.read (a + 3)).toNat := by
    rw [m.readLE_toNat le_rfl]
    simp only [Memory.fieldSum_succ, Nat.add_assoc, Nat.reduceAdd]
    simp only [Memory.fieldSum, List.range_zero, List.map_nil, List.sum_nil]
    omega
  simp only [wordBytes, List.cons.injEq, ← BitVec.toNat_inj, BitVec.extractLsb'_toNat, hsum, Nat.shiftRight_eq_div_pow,
    and_true]
  omega

/-- Settles O17: the four bytes of V are absorbed, and those of a little-endian field are the field's bytes in order. -/
theorem crcWordAbsorbsFourBytes : Obligations.CrcWordAbsorbsFourBytes := by
  intro v s
  refine ⟨rfl, fun w v' hopc hw => ?_, exec_crc_rejected rfl rfl, exec_crc_performed rfl, ?_⟩
  · exact step_deliver_of_ne_pattern (r := ⟨0x03, .crcWord, .w⟩) (by decide) rfl hopc hw v' s
  · rintro a rfl hf
    refine ⟨_, exec_crc_performed rfl hf, ?_⟩
    rw [← wordBytes_readLE]
    rfl

/-! ## CRC.RANGE -/

/-- A raise where no fault is recorded, as the claims write it (R193). -/
theorem raise_eq_faulted {s : State} (h : s.status.fault = false) (e : FaultCode) (off exp act : Word) :
    raise e off exp act s = s.faulted e off exp act := by
  simp [raise, h, State.faulted]

/-- Settles O18: the rule's two branches are on the two sides of the bound. -/
theorem crcRangeAbsorbsARangeOrFaults : Obligations.CrcRangeAbsorbsARangeOrFaults := by
  intro s
  refine ⟨rfl, fun w v hopc hw => ?_, exec_crc_rejected rfl rfl, fun hf hout => ?_, fun hf hin => ?_⟩
  · exact step_deliver_of_ne_pattern (r := ⟨0x04, .crcRange, .n⟩) (by decide) rfl hopc hw v s
  · rw [exec_crc_performed rfl hf, ruleOf, crcRangeRule, if_pos hout, raise_eq_faulted hf]
  · rw [exec_crc_performed rfl hf, ruleOf, crcRangeRule_in_file hin]

/-! ## CRC.CHECK, CRC.LOAD and CRC.RESUME -/

/-- Settles O19: the rule compares RES with EXP and raises nothing. -/
theorem crcCheckCompares : Obligations.CrcCheckCompares := by
  intro s
  refine ⟨rfl, fun w v hopc hw => ?_, exec_crc_rejected rfl rfl, exec_crc_performed rfl⟩
  exact step_deliver_of_ne_pattern (r := ⟨0x05, .crcCheck, .n⟩) (by decide) rfl hopc hw v s

/-- WR ACC is rejected when CRC.LOAD is, and their rules are the same (R110, R171). -/
theorem exec_wr_acc (v : Word) (s : State) : exec (.wr .acc v) s = exec (.crcLoad v) s := by
  have hwr := legal_wr (r := .acc) rfl v s.cfg
  cases hf : s.status.fault with
  | true => rw [exec_rejected hwr rfl hf, exec_crc_rejected rfl rfl hf]
  | false =>
    have hrule : ruleOf (.wr .acc v) s = ruleOf (.crcLoad v) s := by
      simp [ruleOf, wrRule, State.writeReg, crcLoadRule]
    rw [exec_performed hwr (by rintro r ⟨⟩) (.inl hf), exec_crc_performed rfl hf, hrule]

/-- Settles O20: the rule writes ACC alone, as WR ACC does. -/
theorem crcLoadLoadsTheRawAccumulator : Obligations.CrcLoadLoadsTheRawAccumulator := by
  intro v s
  refine ⟨rfl, fun w v' hopc hw => ?_, exec_crc_rejected rfl rfl, exec_crc_performed rfl, exec_wr_acc v s⟩
  exact step_deliver_of_ne_pattern (r := ⟨0x06, .crcLoad, .w⟩) (by decide) rfl hopc hw v' s

/-- XOR by XOROUT undoes itself (R101, R111). -/
theorem xor_xorWord_cancel (v : Word) (c : Config) : v ^^^ c.xorWord ^^^ c.xorWord = v := by
  simp

/-- Settles O21: RES takes XOROUT off again. -/
theorem crcResumeLoadsTheFinalisedCrc : Obligations.CrcResumeLoadsTheFinalisedCrc := by
  intro v s
  refine ⟨rfl, fun w v' hopc hw => ?_, exec_crc_rejected rfl rfl,
    fun hf => ⟨_, exec_crc_performed rfl hf, rfl, xor_xorWord_cancel v s.cfg⟩⟩
  exact step_deliver_of_ne_pattern (r := ⟨0x07, .crcResume, .w⟩) (by decide) rfl hopc hw v' s

/-! ## The family's frame -/

/-- The flags of STATUS that the CRC family leaves alone, the others put to 0. -/
def Status.outsideCrc (f : Status) : Status := { f with matched := false, checked := false, fault := false }

/-- What the CRC family leaves alone: all but ACC, CNT, MATCH, CHECKED, the fault record and the responses. -/
def State.outsideCrc (s : State) :=
  (s.hostSide, s.pend, s.flen, s.dfuse, s.suffix, s.desc, s.walk, s.crc.base, s.crc.len, s.crc.exp, s.status.outsideCrc)

theorem outsideCrc_ignoresFault : IgnoresFault State.outsideCrc := fun _ _ _ _ => rfl

theorem ruleOf_outsideCrc {i : Instr} (h : isCrcFamily i = true) (s : State) :
    (ruleOf i s).outsideCrc = s.outsideCrc := by
  cases i with
  | nop | crcInit | crcByte | crcWord | crcCheck | crcLoad | crcResume => rfl
  | crcRange => exact crcRangeRule_keeps outsideCrc_ignoresFault (fun _ _ _ => rfl) s
  | _ => cases h

theorem status_eq_of_outsideCrc {f g : Status} (h : f.outsideCrc = g.outsideCrc) :
    f = { g with matched := f.matched, checked := f.checked, fault := f.fault } :=
  congrArg (fun r : Status => { r with matched := f.matched, checked := f.checked, fault := f.fault }) h

theorem not_mem_of_isCrcFamily {i : Instr} (h : isCrcFamily i = true) {is : List Instr}
    (his : is.any isCrcFamily = false) : i ∉ is :=
  fun hmem => List.any_eq_false.1 his i hmem h

/-- Only CRC.RANGE of the family can raise, all of it being legal (R108). -/
theorem exec_crc_keepsFault {i : Instr} {s t : State} (h : exec i s = .next t) (hi : isCrcFamily i = true)
    (hne : i ≠ .crcRange) : KeepsFault t s := by
  obtain hkept | ⟨-, -, ⟨hillegal, -⟩ | ⟨hrange, -⟩ | ⟨⟨v, rfl⟩, -⟩ | ⟨hprs, -⟩ | ⟨hprs, -⟩⟩ :=
    exec_fault h (not_mem_of_isCrcFamily hi rfl)
  · exact hkept
  · simp [legal_of_isCrcFamily hi] at hillegal
  · exact absurd hrange hne
  · cases hi
  all_goals exact absurd hprs (not_mem_of_isCrcFamily hi rfl)

/-- Settles O50: the frame is one view of the state, and what only some commands change is another view each. -/
theorem crcFamilyFrame : Obligations.CrcFamilyFrame := by
  intro d v i s t hmem h
  have hi : isCrcFamily i = true := by
    simp only [List.mem_cons, List.not_mem_nil, or_false] at hmem
    obtain rfl | rfl | rfl | rfl | rfl | rfl | rfl | rfl := hmem <;> rfl
  have hkept := exec_keeps outsideCrc_ignoresFault h (ruleOf_outsideCrc hi s)
  simp only [State.outsideCrc, State.hostSide, Prod.mk.injEq] at hkept
  obtain ⟨⟨hcfg, hfile, hport⟩, hpend, hflen, hdfuse, hsuffix, hdesc, hwalk, hbase, hlen, hexp, hstatus⟩ := hkept
  refine ⟨⟨hcfg, hport, hpend, fun a => by rw [hfile]⟩, hflen, hdfuse, hsuffix, hdesc, hwalk, hbase, hlen, hexp,
    status_eq_of_outsideCrc hstatus, fun hne => ?_, fun hne => ?_, fun hsame => ?_, fun hload => ?_⟩
  · have hcheck : (ruleOf i s).checkFlags = s.checkFlags :=
      ruleOf_checkFlags (fun hwriter => by cases i <;> simp_all [isCrcFamily]) s
    have hflags := exec_keeps checkFlags_ignoresFault h hcheck
    exact ⟨congrArg Prod.fst hflags, congrArg Prod.snd hflags⟩
  · exact (exec_crc_keepsFault h hi hne).symm
  · refine exec_keeps (f := State.crc) (fun _ _ _ _ => rfl) h ?_
    simp only [List.mem_cons, List.not_mem_nil, or_false] at hsame
    obtain rfl | rfl := hsame <;> rfl
  · refine exec_readReg h (r := .cnt) rfl ?_
    simp only [List.mem_cons, List.not_mem_nil, or_false] at hload
    obtain rfl | rfl := hload <;> rfl

end Sys2Proof.Machine
end

section
/-!
SUPPORT. The CRC arithmetic (40_crc.md R100, R103, R112): the byte update loses nothing, so a flipped bit shows, and absorbing
bytes in parts is absorbing them at once.
-/

namespace Sys2Proof.Machine

/-! ## The byte update loses nothing -/

/-- Undoes one turn of the loop of R100: the polynomial's top bit stays where bit 0 was 1. -/
def byteTurnBack (c : Word) : Word := if c.getLsbD 31 then ((c ^^^ Config.poly) <<< 1) ||| 1 else c <<< 1

/-- Bit 0 before a turn is bit 31 after it. -/
theorem byteTurn_getLsbD_31 (c : Word) : (byteTurn c).getLsbD 31 = c.getLsbD 0 := by
  unfold byteTurn
  split <;> simp_all

/-- Bit by bit: bit 0 is known from bit 31, the others are moved down and up again. -/
theorem byteTurnBack_byteTurn (c : Word) : byteTurnBack (byteTurn c) = c := by
  rw [byteTurnBack, byteTurn_getLsbD_31, byteTurn, Config.poly]
  apply BitVec.eq_of_getLsbD_eq
  intro k hk
  cases h0 : c.getLsbD 0 <;> obtain _ | k := k <;> simp_all [Nat.add_comm]

theorem byteTurn_injective : Function.Injective byteTurn :=
  Function.LeftInverse.injective byteTurnBack_byteTurn

theorem repeat_byteTurn_injective (n : Nat) : Function.Injective (Nat.repeat byteTurn n) := by
  induction n with
  | zero => exact Function.injective_id
  | succ n ih => exact byteTurn_injective.comp ih

theorem byteUpdate_inj {acc acc' : Word} {d d' : Byte} :
    byteUpdate acc d = byteUpdate acc' d' ↔ acc ^^^ d.setWidth 32 = acc' ^^^ d'.setWidth 32 :=
  (repeat_byteTurn_injective 8).eq_iff

theorem absorbed_injective (b : List Byte) : Function.Injective (absorbed · b) := by
  induction b with
  | nil => exact Function.injective_id
  | cons d b ih =>
    intro acc acc' h
    have hbyte := byteUpdate_inj.1 (ih h)
    exact (BitVec.xor_left_inj _).1 hbyte

theorem absorbed_cons_inj {acc : Word} {d d' : Byte} {b : List Byte} :
    absorbed acc (d :: b) = absorbed acc (d' :: b) ↔ d = d' := by
  refine ⟨fun h => ?_, fun h => h ▸ rfl⟩
  have hwide := (BitVec.xor_right_inj _).1 (byteUpdate_inj.1 (absorbed_injective b h))
  simpa using congrArg (BitVec.setWidth 8) hwide

/-- A string's CRC tells any one byte of it. -/
theorem compute_byte_inj {c : Config} {a b : List Byte} {d d' : Byte} :
    compute c (a ++ d :: b) = compute c (a ++ d' :: b) ↔ d = d' := by
  rw [compute, compute, BitVec.xor_left_inj, absorbed_append, absorbed_append, absorbed_cons_inj]

/-- Settles O23: a byte with a flipped bit is another byte. -/
theorem anySingleBitFlipChangesTheCrc : Obligations.AnySingleBitFlipChangesTheCrc := by
  intro c a b d j hj h
  have hbit := congrArg (BitVec.getLsbD · j) (compute_byte_inj.1 h)
  simp [hj] at hbit

/-! ## Absorbing in parts -/

theorem Memory.bytes_add (m : Memory) (a n k : Nat) : m.bytes a (n + k) = m.bytes a n ++ m.bytes (a + n) k := by
  simp [Memory.bytes, ← List.range'_append_1]

@[simp] theorem Memory.length_bytes (m : Memory) (a n : Nat) : (m.bytes a n).length = n := by
  simp [Memory.bytes]

/-- CRC.RANGE within the file absorbs its bytes as CRC.BYTE and CRC.WORD absorb theirs (R106 to R108). -/
theorem crcRangeRule_eq_absorbBytes {s : State} (h : s.crc.base.toNat + s.crc.len.toNat ≤ s.flen.toNat) :
    crcRangeRule s = absorbBytes (s.file.bytes s.crc.base.toNat s.crc.len.toNat) s := by
  rw [crcRangeRule_in_file h, absorbBytes, crcFold_eq_absorbed, Memory.length_bytes, BitVec.ofNat_toNat, BitVec.setWidth_eq]

/-- Every absorbing command, no fault being recorded, absorbs its bytes. -/
theorem exec_absorbing {s : State} {i : Instr} {b : List Byte} (hf : s.status.fault = false) (hb : s.bytesOf i = some b) :
    exec i s = .next (absorbBytes b s).respondStatus := by
  cases i with
  | crcByte d | crcWord v =>
    cases hb
    exact exec_crc_performed rfl hf
  | crcRange =>
    rw [State.bytesOf] at hb
    split at hb
    next hin =>
      cases hb
      rw [exec_crc_performed rfl hf, ruleOf, crcRangeRule_eq_absorbBytes hin]
    · cases hb
  | _ => cases hb

/-- `t` differs from `s` in nothing that says which bytes a command absorbs, or that rejects it, or that finalises ACC. -/
structure SameInput (t s : State) : Prop where
  cfg   : t.cfg = s.cfg
  fault : t.status.fault = s.status.fault
  bytes : t.bytesOf = s.bytesOf

/-- The frame of the CRC family has all of it but FAULT. -/
theorem sameInput_of_outsideCrc {s t : State} (h : t.outsideCrc = s.outsideCrc) (hf : t.status.fault = s.status.fault) :
    SameInput t s := by
  simp only [State.outsideCrc, State.hostSide, Prod.mk.injEq] at h
  obtain ⟨⟨hcfg, hfile, -⟩, -, hflen, -, -, -, -, hbase, hlen, -⟩ := h
  refine ⟨hcfg, hf, funext fun i => ?_⟩
  cases i <;> simp [State.bytesOf, hbase, hlen, hflen, hfile]

/-- Absorbing commands one after the other absorb their bytes at once (R103). -/
theorem execAll_absorbing {is : List Instr} {bs : List (List Byte)} {s : State} (hf : s.status.fault = false)
    (h : List.Forall₂ (fun i b => s.bytesOf i = some b) is bs) :
    ∃ t, execAll is s = some t ∧ t.crc.acc = absorbed s.crc.acc bs.flatten ∧
      t.crc.cnt = s.crc.cnt + BitVec.ofNat 32 bs.flatten.length ∧ t.cfg = s.cfg := by
  induction is generalizing bs s with
  | nil =>
    cases h
    exact ⟨s, rfl, rfl, (BitVec.add_zero _).symm, rfl⟩
  | cons i is ih =>
    cases h with
    | @cons _ b _ bs hb hrest =>
      have hsame : SameInput (absorbBytes b s).respondStatus s := sameInput_of_outsideCrc rfl rfl
      rw [← hsame.bytes] at hrest
      obtain ⟨t, ht, hacc, hcnt, hcfg⟩ := ih (hsame.fault.trans hf) hrest
      refine ⟨t, (execAll_cons (exec_absorbing hf hb) is).trans ht, ?_, ?_, hcfg⟩
      · rw [hacc, List.flatten_cons, absorbed_append]
        rfl
      · rw [hcnt, List.flatten_cons, List.length_append, BitVec.ofNat_add, ← BitVec.add_assoc]
        rfl

/-- After a command that leaves the raw accumulator of `a` in ACC, absorbing commands go on from `a` (R103). -/
theorem execAll_continues {i : Instr} {is : List Instr} {bs : List (List Byte)} {s u : State} {a : List Byte}
    (hf : s.status.fault = false) (h : List.Forall₂ (fun i b => s.bytesOf i = some b) is bs)
    (hu : exec i s = .next u) (hsame : SameInput u s) (hacc : u.crc.acc = absorbed 0xFFFFFFFF a) :
    ∃ t, execAll (i :: is) s = some t ∧ t.readReg .res = compute s.cfg (a ++ bs.flatten) := by
  rw [← hsame.bytes] at h
  obtain ⟨t, ht, htacc, -, htcfg⟩ := execAll_absorbing (hsame.fault.trans hf) h
  refine ⟨t, (execAll_cons hu is).trans ht, ?_⟩
  rw [State.readReg, State.res, htacc, hacc, htcfg, hsame.cfg, compute, absorbed_append]

/-! ## One range or two -/

/-- `s` after WR BASE and WR LEN (R171). -/
def State.withRange (base len : Word) (s : State) : State :=
  ((s.writeReg .base base).respondStatus.writeReg .len len).respondStatus

/-- WR BASE, WR LEN and CRC.RANGE absorb the range written, if it lies in the file. -/
theorem execAll_range {s : State} {base len : Word} (hf : s.status.fault = false)
    (hin : base.toNat + len.toNat ≤ s.flen.toNat) (is : List Instr) :
    execAll (.wr .base base :: .wr .len len :: .crcRange :: is) s =
      execAll is (absorbBytes (s.file.bytes base.toNat len.toNat) (s.withRange base len)).respondStatus := by
  have hwr (r : Reg) (v : Word) (t : State) (hr : r.access = .readWrite) (hne : r ≠ .flen) (ht : t.status.fault = false) :
      exec (.wr r v) t = .next (t.writeReg r v).respondStatus := by
    rw [exec_performed (legal_wr hr v _) (by rintro q ⟨⟩) (.inl ht), ruleOf, wrRule, if_neg (by simp [hne])]
  have hbase := hwr .base base s rfl (by decide) hf
  have hlen := hwr .len len (s.writeReg .base base).respondStatus rfl (by decide) hf
  rw [execAll_cons hbase, execAll_cons hlen]
  have hbytes : (s.withRange base len).bytesOf .crcRange = some (s.file.bytes base.toNat len.toNat) := if_pos hin
  exact execAll_cons (exec_absorbing (s := s.withRange base len) hf hbytes) is

/-- One CRC.RANGE leaves what two over its parts leave (R103). -/
theorem execAll_range_split {s : State} {base n k : Word} (hf : s.status.fault = false)
    (hin : base.toNat + n.toNat + k.toNat ≤ s.flen.toNat) :
    ∃ t u, execAll [.wr .base base, .wr .len (n + k), .crcRange] s = some t ∧
      execAll [.wr .base base, .wr .len n, .crcRange, .wr .base (base + n), .wr .len k, .crcRange] s = some u ∧
      t.crc.acc = u.crc.acc ∧ t.crc.cnt = u.crc.cnt ∧ t.cfg = u.cfg := by
  have hflen := s.flen.isLt
  have hlen : (n + k).toNat = n.toNat + k.toNat := BitVec.toNat_add_of_lt (by omega)
  have hbase : (base + n).toNat = base.toNat + n.toNat := BitVec.toNat_add_of_lt (by omega)
  refine ⟨_, _, execAll_range hf (by omega) [], (execAll_range hf (by omega) _).trans (execAll_range ?_ ?_ []), ?_, ?_, rfl⟩
  · exact hf
  · exact hbase ▸ hin
  · rw [hlen, hbase, Memory.bytes_add]
    exact absorbed_append ..
  · simp [State.withRange, State.writeReg, BitVec.add_assoc, -BitVec.toNat_add]

/-- Settles O22: CRC.INIT, CRC.LOAD and CRC.RESUME each leave a raw accumulator to go on from. -/
theorem crcIsIncremental : Obligations.CrcIsIncremental := by
  refine ⟨fun s is bs hf h => ⟨?_, ?_, fun a => ⟨?_, ?_⟩⟩, fun s base n k hf hin => ?_⟩
  · obtain ⟨t, ht, hacc, hcnt, -⟩ := execAll_absorbing hf h
    exact ⟨t, ht, hacc, hcnt⟩
  · exact execAll_continues (a := []) hf h (exec_crc_performed rfl hf) (sameInput_of_outsideCrc rfl rfl) rfl
  · exact execAll_continues hf h (exec_crc_performed rfl hf) (sameInput_of_outsideCrc rfl rfl) rfl
  · exact execAll_continues hf h (exec_crc_performed rfl hf) (sameInput_of_outsideCrc rfl rfl)
      (xor_xorWord_cancel _ s.cfg)
  · obtain ⟨t, u, ht, hu, hacc, hcnt, hcfg⟩ := execAll_range_split hf hin
    refine ⟨t, u, ht, hu, hacc, hcnt, ?_⟩
    rw [State.readReg, State.readReg, State.res, State.res, hacc, hcfg]

end Sys2Proof.Machine
end

section
/-!
SUPPORT. One transition of the FSM (41_parser.md R133 to R141): everything it can do, said once, with no premise
on the state it is in; and that PHASE moves along the edges of R130.
-/

namespace Sys2Proof.Machine

/-! ## Active, terminal, IDLE -/

theorem Phase.not_terminal_of_active {p : Phase} (h : p.active = true) : p.terminal = false := by
  cases p <;> simp_all [Phase.active, Phase.terminal]

theorem Phase.active_or_terminal {p : Phase} (h : p ≠ .idle) : p.active = true ∨ p.terminal = true := by
  cases p <;> simp_all [Phase.active, Phase.terminal]

theorem Phase.ne_idle_of_active {p : Phase} (h : p.active = true) : p ≠ .idle := by
  rintro rfl
  cases h

theorem Phase.terminal_iff_mem (p : Phase) : p.terminal = true ↔ p ∈ [Phase.done, .failed] := by
  cases p <;> simp [Phase.terminal]

/-! ## The branches that do not fail

The branches that compute an offset are irreducible: Lean would otherwise compute with 32-bit words
where it compares such a state with the one before it. -/

/-- `s` with OUT_VALID cleared, as every transition begins (R133). -/
def State.quiet (s : State) : State := { s with status := { s.status with outValid := false } }

section
variable (s : State)

@[simp] theorem quiet_cfg : s.quiet.cfg = s.cfg := rfl
@[simp] theorem quiet_flen : s.quiet.flen = s.flen := rfl
@[simp] theorem quiet_file : s.quiet.file = s.file := rfl
@[simp] theorem quiet_dfuse : s.quiet.dfuse = s.dfuse := rfl
@[simp] theorem quiet_walk : s.quiet.walk = s.walk := rfl
@[simp] theorem quiet_bodyEnd : s.quiet.bodyEnd = s.bodyEnd := rfl
@[simp] theorem quiet_status_phase : s.quiet.status.phase = s.status.phase := rfl
@[simp] theorem quiet_status_outValid : s.quiet.status.outValid = false := rfl

end

/-- The rule of a phase (R134 to R141). -/
def phaseRule : Phase → State → State
  | .suffix => transSuffix
  | .sufcrc => transSufcrc
  | .dfusePrefix => transPrefix
  | .plain => transPlain
  | .target => transTarget
  | .element => transElement
  | .tclose => transTclose
  | .idle | .done | .failed => id

theorem transition_eq_phaseRule (s : State) : transition s = phaseRule s.status.phase s.quiet := by
  unfold transition
  cases s.status.phase <;> rfl

/-- In DONE and FAILED a transition only clears OUT_VALID (R141). -/
theorem transition_of_terminal {s : State} (h : s.status.phase.terminal = true) : transition s = s.quiet := by
  rw [transition_eq_phaseRule]
  obtain hph | hph : s.status.phase = .done ∨ s.status.phase = .failed := by simpa using (Phase.terminal_iff_mem _).1 h
  all_goals rw [hph]; rfl

/-- SUFFIX with the fields latched (R134). -/
def State.latchSuffix (s : State) : State := { s with suffix := suffixAt s.file (s.flen.toNat - 16) }

/-- PREFIX where "DfuSe" was found (R136). -/
def State.foundDfuse (s : State) : State := { s with status := { s.status with kind := true } }

/-- PREFIX with PVER, ISIZE and TCNT latched (R136). -/
def State.latchPrefix (s : State) : State :=
  { s.foundDfuse with dfuse := { tcnt := s.file.read 10, isize := s.file.readLE 6 4, pver := s.file.read 5 } }

/-- PREFIX where the walk over the targets begins (R136). -/
def State.beginWalk (s : State) : State :=
  { s.latchPrefix with walk := { s.walk with cur := 11, tidx := 0, tsum := 0 } }.setPhase .target

/-- PREFIX where the file is plain (R136). -/
def State.foundPlain (s : State) : State := { s with status := { s.status with kind := false, phase := .plain } }

/-- The header of the target that begins at CUR (R138). -/
def State.targetHdr (s : State) : TargetHdr := targetHdrAt s.file s.cfg.nb s.walk.cur.toNat

/-- Where the span of the target that begins at CUR starts (R138). -/
def State.spanStart (s : State) : Nat := s.walk.cur.toNat + s.cfg.targetHdrLen

/-- Where that span ends (R138). -/
def State.spanEnd (s : State) : Nat := s.spanStart + s.targetHdr.tsize.toNat

/-- TARGET where the walk enters the span (R138). -/
@[irreducible] def State.enterTarget (s : State) : State :=
  targetEnter s.spanStart s.targetHdr (targetLatch s.targetHdr s)

/-- The size of the element whose header is at CUR (R139). -/
def State.elementSize (s : State) : Word := s.file.readLE (s.walk.cur.toNat + 4) 4

/-- Where the data of that element ends (R139). -/
def State.elementEnd (s : State) : Nat := s.walk.cur.toNat + 8 + s.elementSize.toNat

/-- ELEMENT where a descriptor is emitted (R139). -/
@[irreducible] def State.emitElement (s : State) : State :=
  { s with
    desc := { s.desc with elem := s.walk.eidx, addr := s.file.readLE s.walk.cur.toNat 4,
                          off := BitVec.ofNat 32 (s.walk.cur.toNat + 8), size := s.elementSize }
    walk := { s.walk with cur := BitVec.ofNat 32 s.elementEnd, eidx := s.walk.eidx + 1 }
    status := { s.status with
      addrKnown := true, outValid := true, phase := if s.walk.eidx + 1 = s.walk.nbel then .tclose else .element } }

/-- TCLOSE where the span was consumed (R140). -/
@[irreducible] def State.closeTarget (s : State) : State :=
  { s with walk := { s.walk with tidx := s.walk.tidx + 1 } }.setPhase
    (if s.walk.tidx + 1 = s.dfuse.tcnt.setWidth 32 then .done else .target)

/-! ## The fields after a branch that does not fail -/

section
variable {s : State}

@[simp] theorem enterTarget_cfg : s.enterTarget.cfg = s.cfg := by
  simp only [State.enterTarget, targetEnter, targetLatch, setPhase_cfg]
@[simp] theorem enterTarget_flen : s.enterTarget.flen = s.flen := by
  simp only [State.enterTarget, targetEnter, targetLatch, setPhase_flen]
@[simp] theorem enterTarget_dfuse : s.enterTarget.dfuse = s.dfuse := by
  simp only [State.enterTarget, targetEnter, targetLatch, setPhase_dfuse]
@[simp] theorem enterTarget_kind : s.enterTarget.status.kind = s.status.kind := by
  simp only [State.enterTarget, targetEnter, targetLatch, setPhase_status_kind]
@[simp] theorem enterTarget_outValid : s.enterTarget.status.outValid = s.status.outValid := by
  simp only [State.enterTarget, targetEnter, targetLatch, setPhase_status_outValid]
@[simp] theorem enterTarget_tidx : s.enterTarget.walk.tidx = s.walk.tidx := by
  simp only [State.enterTarget, targetEnter, targetLatch, setPhase_walk]
@[simp] theorem enterTarget_tsum : s.enterTarget.walk.tsum = s.walk.tsum + s.targetHdr.tsize := by
  simp only [State.enterTarget, targetEnter, targetLatch, setPhase_walk]
@[simp] theorem enterTarget_nbel : s.enterTarget.walk.nbel = s.targetHdr.nbel := by
  simp only [State.enterTarget, targetEnter, targetLatch, setPhase_walk]
@[simp] theorem enterTarget_eidx : s.enterTarget.walk.eidx = 0 := by
  simp only [State.enterTarget, targetEnter, targetLatch, setPhase_walk]
@[simp] theorem enterTarget_index : s.enterTarget.desc.tgt.index = s.walk.tidx.extractLsb' 0 8 := by
  simp only [State.enterTarget, targetEnter, targetLatch, setPhase_desc]

@[simp] theorem emitElement_cfg : s.emitElement.cfg = s.cfg := by
  simp only [State.emitElement]
@[simp] theorem emitElement_flen : s.emitElement.flen = s.flen := by
  simp only [State.emitElement]
@[simp] theorem emitElement_dfuse : s.emitElement.dfuse = s.dfuse := by
  simp only [State.emitElement]
@[simp] theorem emitElement_kind : s.emitElement.status.kind = s.status.kind := by
  simp only [State.emitElement]
@[simp] theorem emitElement_outValid : s.emitElement.status.outValid = true := by
  simp only [State.emitElement]
@[simp] theorem emitElement_addrKnown : s.emitElement.status.addrKnown = true := by
  simp only [State.emitElement]
@[simp] theorem emitElement_tidx : s.emitElement.walk.tidx = s.walk.tidx := by
  simp only [State.emitElement]
@[simp] theorem emitElement_tsum : s.emitElement.walk.tsum = s.walk.tsum := by
  simp only [State.emitElement]
@[simp] theorem emitElement_nbel : s.emitElement.walk.nbel = s.walk.nbel := by
  simp only [State.emitElement]
@[simp] theorem emitElement_tend : s.emitElement.walk.tend = s.walk.tend := by
  simp only [State.emitElement]
@[simp] theorem emitElement_eidx : s.emitElement.walk.eidx = s.walk.eidx + 1 := by
  simp only [State.emitElement]
@[simp] theorem emitElement_tgt : s.emitElement.desc.tgt = s.desc.tgt := by
  simp only [State.emitElement]
@[simp] theorem emitElement_elem : s.emitElement.desc.elem = s.walk.eidx := by
  simp only [State.emitElement]
@[simp] theorem emitElement_size : s.emitElement.desc.size = s.elementSize := by
  simp only [State.emitElement]

@[simp] theorem closeTarget_cfg : s.closeTarget.cfg = s.cfg := by
  simp only [State.closeTarget, setPhase_cfg]
@[simp] theorem closeTarget_flen : s.closeTarget.flen = s.flen := by
  simp only [State.closeTarget, setPhase_flen]
@[simp] theorem closeTarget_dfuse : s.closeTarget.dfuse = s.dfuse := by
  simp only [State.closeTarget, setPhase_dfuse]
@[simp] theorem closeTarget_kind : s.closeTarget.status.kind = s.status.kind := by
  simp only [State.closeTarget, setPhase_status_kind]
@[simp] theorem closeTarget_outValid : s.closeTarget.status.outValid = s.status.outValid := by
  simp only [State.closeTarget, setPhase_status_outValid]
@[simp] theorem closeTarget_cur : s.closeTarget.walk.cur = s.walk.cur := by
  simp only [State.closeTarget, setPhase_walk]
@[simp] theorem closeTarget_tsum : s.closeTarget.walk.tsum = s.walk.tsum := by
  simp only [State.closeTarget, setPhase_walk]
@[simp] theorem closeTarget_tidx : s.closeTarget.walk.tidx = s.walk.tidx + 1 := by
  simp only [State.closeTarget, setPhase_walk]

theorem enterTarget_phase_cases :
    (s.targetHdr.nbel = 0 ∧ s.enterTarget.status.phase = .tclose) ∨
      (s.targetHdr.nbel ≠ 0 ∧ s.enterTarget.status.phase = .element) := by
  simp only [State.enterTarget, targetEnter, setPhase_status_phase]
  split <;> simp_all

theorem emitElement_phase_cases :
    (s.walk.eidx + 1 = s.walk.nbel ∧ s.emitElement.status.phase = .tclose) ∨
      (s.walk.eidx + 1 ≠ s.walk.nbel ∧ s.emitElement.status.phase = .element) := by
  simp only [State.emitElement]
  split <;> simp_all

theorem closeTarget_phase_cases :
    (s.walk.tidx + 1 = s.dfuse.tcnt.setWidth 32 ∧ s.closeTarget.status.phase = .done) ∨
      (s.walk.tidx + 1 ≠ s.dfuse.tcnt.setWidth 32 ∧ s.closeTarget.status.phase = .target) := by
  simp only [State.closeTarget, setPhase_status_phase]
  split <;> simp_all

theorem spanStart_lt (h : s.spanEnd + 16 ≤ s.flen.toNat) : s.spanStart < 2 ^ 32 := by
  have := s.flen.isLt
  rw [State.spanEnd] at h
  omega

theorem enterTarget_cur (h : s.spanEnd + 16 ≤ s.flen.toNat) : s.enterTarget.walk.cur.toNat = s.spanStart := by
  have hcur : s.enterTarget.walk.cur = BitVec.ofNat 32 s.spanStart := by
    simp only [State.enterTarget, targetEnter, targetLatch, setPhase_walk, narrow_natCast]
  rw [hcur, BitVec.toNat_ofNat, Nat.mod_eq_of_lt (spanStart_lt h)]

theorem enterTarget_tend (h : s.spanEnd + 16 ≤ s.flen.toNat) : s.enterTarget.walk.tend.toNat = s.spanEnd := by
  have htend : s.enterTarget.walk.tend = BitVec.ofNat 32 s.spanEnd := by
    simp only [State.enterTarget, targetEnter, targetLatch, setPhase_walk, ← Nat.cast_add, narrow_natCast,
      State.spanEnd]
  have := s.flen.isLt
  rw [htend, BitVec.toNat_ofNat, Nat.mod_eq_of_lt (by omega)]

theorem emitElement_cur (h : s.elementEnd ≤ s.walk.tend.toNat) : s.emitElement.walk.cur.toNat = s.elementEnd := by
  simp only [State.emitElement, BitVec.toNat_ofNat]
  exact Nat.mod_eq_of_lt (h.trans_lt s.walk.tend.isLt)

theorem emitElement_off (h : s.elementEnd ≤ s.walk.tend.toNat) :
    s.emitElement.desc.off.toNat = s.walk.cur.toNat + 8 := by
  have := s.walk.tend.isLt
  rw [State.elementEnd] at h
  simp only [State.emitElement, BitVec.toNat_ofNat]
  exact Nat.mod_eq_of_lt (by omega)

end

/-! ## Everything a transition can do -/

/-- What a failing transition has left alone when it fails: what is outside the parser, the fault record and the flags
of STATUS but KIND; and, but in PREFIX, KIND and PVER, ISIZE and TCNT. -/
structure KeptTillFailure (u s : State) : Prop where
  outside : SameOutside u s
  unit    : KeepsUnit u s
  flags   : u.status = { s.status with kind := u.status.kind }
  dfuse   : s.status.phase ≠ .dfusePrefix → u.dfuse = s.dfuse ∧ u.status.kind = s.status.kind

/-- The outcome of the rule of the phase `s` is in, OUT_VALID being cleared in `s`. -/
inductive Advance (s : State) : State → Prop where
  | fails {e : FaultCode} {off exp act : Word} {u : State}
      (hph : s.status.phase ∈ [Phase.suffix, .dfusePrefix, .target, .element, .tclose])
      (he : e ∈ structuralCodes) (hu : KeptTillFailure u s) : Advance s (fail e off exp act u)
  | readsSuffix (hph : s.status.phase = .suffix) (hlen : 16 ≤ s.flen.toNat) : Advance s (s.latchSuffix.setPhase .sufcrc)
  | judges (hph : s.status.phase = .sufcrc) : Advance s (transSufcrc s)
  | findsPlain (hph : s.status.phase = .dfusePrefix) : Advance s s.foundPlain
  | beginsWalk (hph : s.status.phase = .dfusePrefix) (hlen : 11 + 16 ≤ s.flen.toNat) (htcnt : s.file.read 10 ≠ 0) :
      Advance s s.beginWalk
  | emitsPlain (hph : s.status.phase = .plain) : Advance s (transPlain s)
  | enters (hph : s.status.phase = .target) (hspan : s.spanEnd + 16 ≤ s.flen.toNat) : Advance s s.enterTarget
  | emits (hph : s.status.phase = .element) (hend : s.elementEnd ≤ s.walk.tend.toNat) : Advance s s.emitElement
  | closes (hph : s.status.phase = .tclose) (hend : s.walk.cur = s.walk.tend) : Advance s s.closeTarget
  | rests (hph : s.status.phase ∈ [Phase.idle, .done, .failed]) : Advance s s

theorem SameOutside.refl (s : State) : SameOutside s s := ⟨rfl, rfl, rfl, rfl, rfl, rfl⟩

theorem KeptTillFailure.refl (s : State) : KeptTillFailure s s :=
  ⟨.refl s, ⟨rfl, rfl, rfl, rfl⟩, rfl, fun _ => ⟨rfl, rfl⟩⟩

section
variable {s : State}

theorem transSuffix_advance (h : s.status.phase = .suffix) : Advance s (transSuffix s) := by
  unfold transSuffix
  dsimp only
  split
  · exact .fails (by simp [h]) (by decide) (.refl s)
  next hlen =>
    split
    · exact .fails (by simp [h]) (by decide) ⟨.refl s, ⟨rfl, rfl, rfl, rfl⟩, rfl, fun _ => ⟨rfl, rfl⟩⟩
    · exact .readsSuffix h (Nat.le_of_not_lt hlen)

theorem transPrefix_advance (h : s.status.phase = .dfusePrefix) : Advance s (transPrefix s) := by
  have hfail {e : FaultCode} {off exp act : Word} (he : e ∈ structuralCodes) (u : State)
      (hu : u = s.foundDfuse ∨ u = s.latchPrefix) : Advance s (fail e off exp act u) := by
    refine .fails (by simp [h]) he ?_
    obtain rfl | rfl := hu <;> exact ⟨.refl s, ⟨rfl, rfl, rfl, rfl⟩, rfl, fun hne => absurd h hne⟩
  unfold transPrefix
  dsimp only
  split
  · split
    · exact hfail (by decide) _ (.inl rfl)
    next hlen =>
      split
      · exact hfail (by decide) _ (.inr rfl)
      · split
        · exact hfail (by decide) _ (.inr rfl)
        next htcnt =>
          simp only [State.bodyEnd, Config.suffixLen, Config.dfusePrefixLen] at hlen
          exact .beginsWalk h (by omega) htcnt
  · exact .findsPlain h

theorem transTarget_advance (h : s.status.phase = .target) : Advance s (transTarget s) := by
  unfold transTarget
  dsimp only
  split
  · exact .fails (by simp [h]) (by decide) (.refl s)
  · split
    · exact .fails (by simp [h]) (by decide) (.refl s)
    · unfold targetSpan
      split
      · exact .fails (by simp [h]) (by decide) ⟨.refl s, ⟨rfl, rfl, rfl, rfl⟩, rfl, fun _ => ⟨rfl, rfl⟩⟩
      next hspan =>
        simp only [State.bodyEnd, Config.suffixLen] at hspan
        have hbody : s.spanEnd + 16 ≤ s.flen.toNat := by
          simp only [State.spanEnd, State.spanStart, State.targetHdr]
          omega
        have henters := Advance.enters h hbody
        rw [State.enterTarget] at henters
        exact henters

theorem transElement_advance (h : s.status.phase = .element) : Advance s (transElement s) := by
  unfold transElement
  dsimp only
  split
  · exact .fails (by simp [h]) (by decide) (.refl s)
  · split
    · exact .fails (by simp [h]) (by decide) (.refl s)
    next hend =>
      have hoff : narrow (s.walk.cur.toNat + 8) = BitVec.ofNat 32 (s.walk.cur.toNat + 8) := narrow_natCast _
      have hcur : narrow (s.walk.cur.toNat + 8 + s.elementSize.toNat) = BitVec.ofNat 32 s.elementEnd := narrow_natCast _
      have hemits := Advance.emits h (Nat.le_of_not_lt hend)
      rw [State.emitElement, ← hoff, ← hcur] at hemits
      exact hemits

theorem transTclose_advance (h : s.status.phase = .tclose) : Advance s (transTclose s) := by
  unfold transTclose
  split
  · exact .fails (by simp [h]) (by decide) (.refl s)
  next hend =>
    have hcloses := Advance.closes h (not_not.1 hend)
    rw [State.closeTarget] at hcloses
    exact hcloses

theorem phaseRule_advance (s : State) : Advance s (phaseRule s.status.phase s) := by
  cases hph : s.status.phase with
  | suffix => exact transSuffix_advance hph
  | sufcrc => exact .judges hph
  | dfusePrefix => exact transPrefix_advance hph
  | plain => exact .emitsPlain hph
  | target => exact transTarget_advance hph
  | element => exact transElement_advance hph
  | tclose => exact transTclose_advance hph
  | idle | done | failed => exact .rests (by simp [hph])

/-- Everything one transition can do (R133 to R141). -/
theorem transition_advance (s : State) : Advance s.quiet (transition s) := by
  rw [transition_eq_phaseRule]
  exact phaseRule_advance s.quiet

end

/-- Settles O38: each outcome of a transition is one edge of the table. -/
theorem phaseMovesAlongTheEdges : Obligations.PhaseMovesAlongTheEdges := by
  intro s hidle
  have hadvance := transition_advance s
  generalize transition s = t at hadvance
  cases hadvance with
  | fails hph =>
    simp only [quiet_status_phase, List.mem_cons, List.not_mem_nil, or_false] at hph
    obtain hph | hph | hph | hph | hph := hph <;> simp [hph]
  | readsSuffix hph | judges hph | findsPlain hph | beginsWalk hph | emitsPlain hph =>
    rw [quiet_status_phase] at hph
    simp [hph, transSufcrc, transPlain, State.foundPlain, State.beginWalk]
  | enters hph =>
    rw [quiet_status_phase] at hph
    obtain ⟨-, hnext⟩ | ⟨-, hnext⟩ := enterTarget_phase_cases (s := s.quiet) <;> simp [hph, hnext]
  | emits hph =>
    rw [quiet_status_phase] at hph
    obtain ⟨-, hnext⟩ | ⟨-, hnext⟩ := emitElement_phase_cases (s := s.quiet) <;> simp [hph, hnext]
  | closes hph =>
    rw [quiet_status_phase] at hph
    obtain ⟨-, hnext⟩ | ⟨-, hnext⟩ := closeTarget_phase_cases (s := s.quiet) <;> simp [hph, hnext]
  | rests hph =>
    simp only [quiet_status_phase, List.mem_cons, List.not_mem_nil, or_false] at hph
    obtain hph | hph | hph := hph <;> simp_all

end Sys2Proof.Machine
end

section
/-!
SUPPORT. The invariant phase by phase (41_parser.md R130, R146): what it asks in each phase, that every transition and
every command keeps it, and the statement that every step does.
-/

namespace Sys2Proof.Machine

/-! ## What the invariant asks in each phase -/

/-- What the invariant asks alike in every phase. -/
structure State.BaseInv (s : State) : Prop where
  file    : s.FileInv
  pend    : s.PendInv
  record  : s.RecordInv
  checked : s.status.matched = true → s.status.checked = true
  verdict : ¬ (s.status.crcValid = true ∧ s.status.warnCrc = true)

/-- Before SUFCRC the parse has judged nothing (R32 to R35). -/
def Status.Unjudged (f : Status) : Prop :=
  f.crcValid = false ∧ f.warnCrc = false ∧ f.kind = false ∧ f.outValid = false

/-- After SUFCRC the suffix CRC is judged, and KIND is `k` (R32 to R34). -/
def Status.Judged (k : Bool) (f : Status) : Prop := f.warnCrc = (!f.crcValid) ∧ f.kind = k

/-- The walk between two targets: CUR has passed the targets before TIDX (R146). -/
structure State.BeforeTarget (s : State) : Prop where
  cur  : s.walk.cur.toNat = 11 + s.walk.tidx.toNat * s.cfg.targetHdrLen + s.walk.tsum.toNat
  body : s.walk.cur.toNat + 16 ≤ s.flen.toNat
  tidx : s.walk.tidx.toNat < s.dfuse.tcnt.toNat

/-- The walk inside target TIDX, whose span ends at TEND (R146), and its descriptor registers (R45, R139). -/
structure State.InsideTarget (s : State) : Prop where
  start : 11 ≤ s.walk.cur.toNat
  cur   : s.walk.cur.toNat ≤ s.walk.tend.toNat
  tend  : s.walk.tend.toNat = 11 + (s.walk.tidx.toNat + 1) * s.cfg.targetHdrLen + s.walk.tsum.toNat
  body  : s.walk.tend.toNat + 16 ≤ s.flen.toNat
  tidx  : s.walk.tidx.toNat < s.dfuse.tcnt.toNat
  eidx  : s.walk.eidx.toNat ≤ s.walk.nbel.toNat
  index : s.desc.tgt.index.toNat = s.walk.tidx.toNat
  desc  : s.status.outValid = true →
    s.desc.off.toNat + s.desc.size.toNat = s.walk.cur.toNat ∧ s.desc.elem.toNat + 1 = s.walk.eidx.toNat ∧
    s.status.addrKnown = true

/-- After the last target CUR stands past it, and TSUM is the sum of all sizes (R146). -/
def State.PastTargets (s : State) : Prop :=
  s.walk.tidx.toNat = s.dfuse.tcnt.toNat ∧
  s.walk.cur.toNat = 11 + s.dfuse.tcnt.toNat * s.cfg.targetHdrLen + s.walk.tsum.toNat

/-- What the invariant asks in a phase. -/
def State.PhaseInv (s : State) : Phase → Prop
  | .idle => s.status.Unjudged ∧ s.NoParserInv
  | .suffix => s.cfg.hasParser = true ∧ s.status.Unjudged
  | .sufcrc => s.cfg.hasParser = true ∧ s.status.Unjudged ∧ 16 ≤ s.flen.toNat
  | .dfusePrefix | .plain =>
    s.cfg.hasParser = true ∧ s.status.Judged false ∧ s.status.outValid = false ∧ 16 ≤ s.flen.toNat
  | .target => s.cfg.hasParser = true ∧ s.status.Judged true ∧ s.status.outValid = false ∧ s.BeforeTarget
  | .element =>
    s.cfg.hasParser = true ∧ s.status.Judged true ∧ s.InsideTarget ∧ s.walk.eidx.toNat < s.walk.nbel.toNat
  | .tclose => s.cfg.hasParser = true ∧ s.status.Judged true ∧ s.InsideTarget
  | .done => s.cfg.hasParser = true ∧ s.status.warnCrc = (!s.status.crcValid) ∧ (s.status.kind = true → s.PastTargets)
  | .failed => s.cfg.hasParser = true ∧ s.status.outValid = false

/-- Past IDLE there is a parser (R49). -/
theorem State.Inv.hasParser {s : State} (h : s.Inv) (hph : s.status.phase ≠ .idle) : s.cfg.hasParser = true := by
  obtain ⟨-, -, -, -, -, hnone, -⟩ := h
  by_contra hc
  obtain ⟨-, -, -, -, -, -, hidle, -⟩ := hnone (Bool.eq_false_of_not_eq_true hc)
  exact hph hidle

theorem State.Inv.base {s : State} (h : s.Inv) : s.BaseInv := by
  obtain ⟨hfile, hpend, hrecord, ⟨hchecked, -, -, hverdict⟩, -⟩ := h
  exact ⟨hfile, hpend, hrecord, hchecked, hverdict⟩

theorem State.Inv.atPhase {s : State} (h : s.Inv) {p : Phase} (hph : s.status.phase = p) : s.PhaseInv p := by
  have hparser := h.hasParser
  obtain ⟨-, -, -, ⟨-, hearly, hlate, -⟩, ⟨hplain, hdfuse, hout⟩, hnone, hbody, ⟨hwalk, hspan, helem⟩,
    ⟨hbefore, hinside, hpast⟩, hdesc⟩ := h
  have hInside (hp : p = .element ∨ p = .tclose) : s.InsideTarget := by
    have hmem : s.status.phase ∈ [Phase.element, .tclose] := by simpa [hph] using hp
    obtain ⟨hstart, -, -, htidx⟩ := hwalk (by simp_all)
    obtain ⟨hcur, htend, heidx⟩ := hspan hmem
    obtain ⟨hindex, hemitted⟩ := hdesc hmem
    exact ⟨hstart, hcur, hinside hmem, htend, htidx, heidx, hindex, hemitted⟩
  rw [State.BodyInv, hph] at hbody
  rw [hph] at hparser hearly hlate hplain hdfuse hout hwalk helem hbefore hpast
  cases p with
  | target =>
    obtain ⟨-, hcur, -, htidx⟩ := hwalk (by decide)
    exact ⟨hparser (by decide), ⟨hlate (by decide), hdfuse (by decide)⟩, by simpa using hout, hbefore rfl, hcur, htidx⟩
  | element => exact ⟨hparser (by decide), ⟨hlate (by decide), hdfuse (by decide)⟩, hInside (.inl rfl), helem rfl⟩
  | tclose => exact ⟨hparser (by decide), ⟨hlate (by decide), hdfuse (by decide)⟩, hInside (.inr rfl)⟩
  | idle =>
    obtain ⟨hvalid, hwarn⟩ := hearly (by decide)
    exact ⟨⟨hvalid, hwarn, hplain (by decide), by simpa using hout⟩, hnone⟩
  | _ => simp_all [State.PhaseInv, Status.Unjudged, Status.Judged, State.PastTargets]

theorem inv_of_phaseInv {s : State} (hb : s.BaseInv) {p : Phase} (hph : s.status.phase = p) (hp : s.PhaseInv p) :
    s.Inv := by
  obtain ⟨hfile, hpend, hrecord, hchecked, hverdict⟩ := hb
  have hearly : s.CrcFlagInv ∧ s.KindInv ∧ s.NoParserInv := by
    cases p with
    | idle =>
      obtain ⟨⟨hvalid, hwarn, hkind, hquiet⟩, hnone⟩ := hp
      refine ⟨?_, ?_, hnone⟩ <;> simp_all [State.CrcFlagInv, State.KindInv]
    | _ => simp_all [State.PhaseInv, State.CrcFlagInv, State.KindInv, Status.Unjudged, Status.Judged]
  have hwalk : s.BodyInv ∧ s.WalkInv ∧ s.SumInv ∧ s.DescInv := by
    simp only [State.BodyInv, State.WalkInv, State.SumInv, State.DescInv, hph]
    cases p with
    | target =>
      obtain ⟨-, -, -, hcur, hbody, htidx⟩ := hp
      refine ⟨fun _ => by omega, ⟨fun _ => ⟨by omega, hbody, by omega, htidx⟩, ?_, ?_⟩, ⟨fun _ => hcur, ?_, ?_⟩, ?_⟩ <;>
        simp
    | element =>
      obtain ⟨-, -, ⟨hstart, hcur, htend, hbody, htidx, heidx, hindex, hdesc⟩, helem⟩ := hp
      refine ⟨fun _ => by omega, ⟨fun _ => ⟨hstart, by omega, by omega, htidx⟩, fun _ => ⟨hcur, hbody, heidx⟩,
        fun _ => helem⟩, ⟨?_, fun _ => htend, ?_⟩, fun _ => ⟨hindex, hdesc⟩⟩ <;> simp
    | tclose =>
      obtain ⟨-, -, ⟨hstart, hcur, htend, hbody, htidx, heidx, hindex, hdesc⟩⟩ := hp
      refine ⟨fun _ => by omega, ⟨fun _ => ⟨hstart, by omega, by omega, htidx⟩, fun _ => ⟨hcur, hbody, heidx⟩, ?_⟩,
        ⟨?_, fun _ => htend, ?_⟩, fun _ => ⟨hindex, hdesc⟩⟩ <;> simp
    | _ => simp_all [State.PhaseInv, State.PastTargets]
  obtain ⟨hcrc, hkind, hnone⟩ := hearly
  exact ⟨hfile, hpend, hrecord, hcrc, hkind, hnone, hwalk⟩

/-! ## The parts of the invariant under the shared operations -/

/-- What `State.BaseInv` looks at. -/
def State.baseView (s : State) : Memory × Option Word × FaultRecord × Bool × Bool × Bool × Bool × Bool :=
  (s.file, s.pend, s.record, s.status.fault, s.status.matched, s.status.checked, s.status.crcValid, s.status.warnCrc)

theorem State.BaseInv.of_view {s t : State} (h : s.BaseInv) (hview : t.baseView = s.baseView) : t.BaseInv := by
  simp only [State.baseView, Prod.mk.injEq] at hview
  obtain ⟨hfile, hpend, hrecord, hfault, hmatched, hchecked, hvalid, hwarn⟩ := hview
  refine ⟨?_, ?_, ?_, ?_, ?_⟩
  · rw [State.FileInv, hfile]; exact h.file
  · rw [State.PendInv, hpend]; exact h.pend
  · rw [State.RecordInv, hrecord, hfault]; exact h.record
  · rw [hmatched, hchecked]; exact h.checked
  · rw [hvalid, hwarn]; exact h.verdict

/-- What `Status.Judged` looks at. -/
def Status.judgedView (f : Status) : Bool × Bool × Bool := (f.crcValid, f.warnCrc, f.kind)

theorem Status.Judged.of_view {f g : Status} {k : Bool} (h : f.Judged k) (hview : g.judgedView = f.judgedView) :
    g.Judged k := by
  simp only [Status.judgedView, Prod.mk.injEq] at hview
  obtain ⟨hvalid, hwarn, hkind⟩ := hview
  exact ⟨by rw [hvalid, hwarn]; exact h.1, by rw [hkind]; exact h.2⟩

theorem enterTarget_baseView (s : State) : s.enterTarget.baseView = s.baseView := by
  simp only [State.enterTarget, targetEnter, targetLatch, State.setPhase, State.baseView]

theorem enterTarget_judgedView (s : State) : s.enterTarget.status.judgedView = s.status.judgedView := by
  simp only [State.enterTarget, targetEnter, targetLatch, State.setPhase, Status.judgedView]

theorem emitElement_baseView (s : State) : s.emitElement.baseView = s.baseView := by
  simp only [State.emitElement, State.baseView]

theorem emitElement_judgedView (s : State) : s.emitElement.status.judgedView = s.status.judgedView := by
  simp only [State.emitElement, Status.judgedView]

theorem closeTarget_baseView (s : State) : s.closeTarget.baseView = s.baseView := by
  simp only [State.closeTarget, State.setPhase, State.baseView]

theorem closeTarget_judgedView (s : State) : s.closeTarget.status.judgedView = s.status.judgedView := by
  simp only [State.closeTarget, State.setPhase, Status.judgedView]

/-- A raise of anything but the warning keeps the record as the invariant has it (R193). -/
theorem raise_recordInv {s : State} (h : s.RecordInv) {e : FaultCode} (he : e ≠ .none ∧ e ≠ .checksumMismatch)
    (off exp act : Word) : (raise e off exp act s).RecordInv := by
  unfold raise
  split
  · exact h
  · exact ⟨fun hf => by simp at hf, fun _ => he⟩

theorem structural_ne {e : FaultCode} (he : e ∈ structuralCodes) : e ≠ .none ∧ e ≠ .checksumMismatch := by
  constructor <;> rintro rfl <;> simp [structuralCodes] at he

theorem raise_inv {s : State} (h : s.Inv) {e : FaultCode} (he : e ≠ .none ∧ e ≠ .checksumMismatch)
    (off exp act : Word) : (raise e off exp act s).Inv := by
  unfold raise
  split
  · exact h
  · obtain ⟨hfile, hpend, -, hrest⟩ := h
    exact ⟨hfile, hpend, ⟨fun hf => by simp at hf, fun _ => he⟩, hrest⟩

/-- OUT_VALID may always be cleared. -/
theorem quiet_inv {s : State} (h : s.Inv) : s.quiet.Inv := by
  obtain ⟨hfile, hpend, hrecord, hcrc, ⟨hplain, hdfuse, -⟩, hnone, hbody, hwalk, hsum, hdesc⟩ := h
  refine ⟨hfile, hpend, hrecord, hcrc, ⟨hplain, hdfuse, fun hq => by cases hq⟩, fun hc => ?_, hbody, hwalk, hsum,
    fun hp => ⟨(hdesc hp).1, fun hq => by cases hq⟩⟩
  obtain ⟨hvalid, hwarn, hkind, -, hrest⟩ := hnone hc
  exact ⟨hvalid, hwarn, hkind, rfl, hrest⟩

/-! ## Every transition keeps the invariant -/

section
variable {s : State}

theorem fail_inv {u : State} (hb : u.BaseInv) (hparser : u.cfg.hasParser = true) (hquiet : u.status.outValid = false)
    {e : FaultCode} (he : e ∈ structuralCodes) (off exp act : Word) : (fail e off exp act u).Inv := by
  have hbase : (fail e off exp act u).BaseInv := by
    refine ⟨?_, ?_, raise_recordInv hb.record (structural_ne he) off exp act, ?_, ?_⟩
    · rw [State.FileInv, fail_file]; exact hb.file
    · rw [State.PendInv, fail_pend]; exact hb.pend
    · simpa using hb.checked
    · simpa using hb.verdict
  exact inv_of_phaseInv hbase (fail_status_phase ..) ⟨by simpa using hparser, by simpa using hquiet⟩

/-- TSUM is exact while the spans lie in the body (R146). -/
theorem enterTarget_tsum_toNat (hb : s.BeforeTarget) (hspan : s.spanEnd + 16 ≤ s.flen.toNat) :
    s.enterTarget.walk.tsum.toNat = s.walk.tsum.toNat + s.targetHdr.tsize.toNat := by
  have hcur := hb.cur
  have hflen := s.flen.isLt
  have hends : s.spanEnd = s.walk.cur.toNat + s.cfg.targetHdrLen + s.targetHdr.tsize.toNat := rfl
  rw [enterTarget_tsum, BitVec.toNat_add_of_lt (by omega)]

/-- TARGET numbers its descriptors by TIDX and bounds its span by TEND (R146). -/
theorem enterTarget_inside (hb : s.BeforeTarget) (hquiet : s.status.outValid = false)
    (hspan : s.spanEnd + 16 ≤ s.flen.toNat) : s.enterTarget.InsideTarget := by
  have htsum := enterTarget_tsum_toNat hb hspan
  obtain ⟨hcur, hbody, htidx⟩ := hb
  have htcnt := s.dfuse.tcnt.isLt
  have hends : s.spanEnd = s.walk.cur.toNat + s.cfg.targetHdrLen + s.targetHdr.tsize.toNat := rfl
  refine ⟨?_, ?_, ?_, ?_, by simpa using htidx, by simp, ?_, by simp [hquiet]⟩
  · rw [enterTarget_cur hspan, State.spanStart]
    omega
  · rw [enterTarget_cur hspan, enterTarget_tend hspan, State.spanEnd]
    omega
  · rw [enterTarget_tend hspan, htsum, enterTarget_tidx, enterTarget_cfg, hends, hcur, Nat.succ_mul]
    omega
  · rw [enterTarget_tend hspan, enterTarget_flen]
    exact hspan
  · rw [enterTarget_index, enterTarget_tidx, BitVec.extractLsb'_toNat, Nat.shiftRight_zero, Nat.mod_eq_of_lt (by omega)]

/-- ELEMENT moves CUR to the end of the data and counts the element (R146, R139). -/
theorem emitElement_inside (hi : s.InsideTarget) (helem : s.walk.eidx.toNat < s.walk.nbel.toNat)
    (hend : s.elementEnd ≤ s.walk.tend.toNat) :
    s.emitElement.InsideTarget ∧ s.emitElement.walk.eidx.toNat = s.walk.eidx.toNat + 1 := by
  obtain ⟨hstart, hcur, htend, hbody, htidx, heidx, hindex, -⟩ := hi
  have hnbel := s.walk.nbel.isLt
  have hnext : s.emitElement.walk.eidx.toNat = s.walk.eidx.toNat + 1 := by
    rw [emitElement_eidx, BitVec.toNat_add_of_lt (by simp; omega)]
    rfl
  refine ⟨⟨?_, ?_, by simpa using htend, by simpa using hbody, by simpa using htidx, ?_, by simpa using hindex,
    fun _ => ?_⟩, hnext⟩
  · rw [emitElement_cur hend, State.elementEnd]
    omega
  · rw [emitElement_cur hend, emitElement_tend]
    exact hend
  · rw [hnext, emitElement_nbel]
    exact helem
  · rw [hnext, emitElement_off hend, emitElement_cur hend, emitElement_size, emitElement_elem]
    exact ⟨rfl, rfl, emitElement_addrKnown⟩

/-- TIDX counts the target just closed (R140). -/
theorem closeTarget_tidx_toNat (hi : s.InsideTarget) : s.closeTarget.walk.tidx.toNat = s.walk.tidx.toNat + 1 := by
  have htcnt := s.dfuse.tcnt.isLt
  have htidx := hi.tidx
  rw [closeTarget_tidx, BitVec.toNat_add_of_lt (by simp; omega)]
  rfl

/-- What the rule of a phase keeps of the invariant, OUT_VALID being cleared (R130, R146). -/
theorem advance_inv {t : State} (h : s.Inv) (hquiet : s.status.outValid = false) (ht : Advance s t) : t.Inv := by
  have hb := h.base
  cases ht with
  | fails hph he hu =>
    have hparser : s.cfg.hasParser = true := h.hasParser (by rintro hidle; simp [hidle] at hph)
    obtain ⟨⟨hcfg, -, hfile, hpend, -, -⟩, ⟨-, -, hfault, hrecord⟩, hflags, -⟩ := hu
    refine fail_inv (hb.of_view ?_) (by rwa [hcfg]) (by rw [hflags]; exact hquiet) he _ _ _
    simp only [State.baseView]
    rw [hfile, hpend, hrecord, hflags]
  | readsSuffix hph hlen =>
    obtain ⟨hparser, hflags⟩ := h.atPhase hph
    exact inv_of_phaseInv (hb.of_view rfl) rfl ⟨hparser, hflags, hlen⟩
  | judges hph =>
    obtain ⟨hparser, ⟨-, -, hkind, -⟩, hlen⟩ := h.atPhase hph
    exact inv_of_phaseInv ⟨hb.file, hb.pend, hb.record, fun _ => rfl, by simp [transSufcrc, Status.crcVerdict]⟩ rfl
      ⟨hparser, ⟨rfl, hkind⟩, hquiet, hlen⟩
  | findsPlain hph =>
    obtain ⟨hparser, ⟨hwarn, -⟩, -, hlen⟩ := h.atPhase hph
    exact inv_of_phaseInv (hb.of_view rfl) rfl ⟨hparser, ⟨hwarn, rfl⟩, hquiet, hlen⟩
  | beginsWalk hph hlen htcnt =>
    obtain ⟨hparser, ⟨hwarn, -⟩, -, -⟩ := h.atPhase hph
    have htcnt' : 0 < (s.file.read 10).toNat := by bv_omega
    exact inv_of_phaseInv (hb.of_view rfl) rfl
      ⟨hparser, ⟨hwarn, rfl⟩, hquiet, by simp [State.beginWalk, State.latchPrefix], hlen, htcnt'⟩
  | emitsPlain hph =>
    obtain ⟨hparser, ⟨hwarn, hkind⟩, -⟩ := h.atPhase hph
    exact inv_of_phaseInv (hb.of_view rfl) rfl ⟨hparser, hwarn, fun hk => absurd (hk.symm.trans hkind) (by decide)⟩
  | enters hph hspan =>
    obtain ⟨hparser, hjudged, -, hbefore⟩ := h.atPhase hph
    have hinside := enterTarget_inside hbefore hquiet hspan
    have hparser' : s.enterTarget.cfg.hasParser = true := by rwa [enterTarget_cfg]
    have hjudged' := hjudged.of_view (enterTarget_judgedView s)
    have hb' := hb.of_view (enterTarget_baseView s)
    obtain ⟨-, hnext⟩ | ⟨hnbel, hnext⟩ := enterTarget_phase_cases (s := s)
    · exact inv_of_phaseInv hb' hnext ⟨hparser', hjudged', hinside⟩
    · have hfirst : s.enterTarget.walk.eidx.toNat < s.enterTarget.walk.nbel.toNat := by
        rw [enterTarget_eidx, enterTarget_nbel]
        bv_omega
      exact inv_of_phaseInv hb' hnext ⟨hparser', hjudged', hinside, hfirst⟩
  | emits hph hend =>
    obtain ⟨hparser, hjudged, hinside, helem⟩ := h.atPhase hph
    obtain ⟨hnext, heidx⟩ := emitElement_inside hinside helem hend
    have hparser' : s.emitElement.cfg.hasParser = true := by rwa [emitElement_cfg]
    have hjudged' := hjudged.of_view (emitElement_judgedView s)
    have hb' := hb.of_view (emitElement_baseView s)
    obtain ⟨-, hphase⟩ | ⟨hmore, hphase⟩ := emitElement_phase_cases (s := s)
    · exact inv_of_phaseInv hb' hphase ⟨hparser', hjudged', hnext⟩
    · have hne : s.emitElement.walk.eidx.toNat ≠ s.emitElement.walk.nbel.toNat := by
        rw [emitElement_eidx, emitElement_nbel]
        exact fun heq => hmore (BitVec.eq_of_toNat_eq heq)
      exact inv_of_phaseInv hb' hphase ⟨hparser', hjudged', hnext, Nat.lt_of_le_of_ne hnext.eidx hne⟩
  | closes hph hend =>
    obtain ⟨hparser, hjudged, hinside⟩ := h.atPhase hph
    have htidx := closeTarget_tidx_toNat hinside
    have hcur : s.closeTarget.walk.cur.toNat =
        11 + s.closeTarget.walk.tidx.toNat * s.closeTarget.cfg.targetHdrLen + s.closeTarget.walk.tsum.toNat := by
      rw [closeTarget_cur, closeTarget_cfg, closeTarget_tsum, htidx, hend]
      exact hinside.tend
    have hparser' : s.closeTarget.cfg.hasParser = true := by rwa [closeTarget_cfg]
    have hjudged' := hjudged.of_view (closeTarget_judgedView s)
    have hb' := hb.of_view (closeTarget_baseView s)
    obtain ⟨hlast, hphase⟩ | ⟨hmore, hphase⟩ := closeTarget_phase_cases (s := s)
    · have hall : s.closeTarget.walk.tidx.toNat = s.closeTarget.dfuse.tcnt.toNat := by
        rw [closeTarget_tidx, closeTarget_dfuse, hlast, BitVec.toNat_setWidth_of_le (by decide)]
      exact inv_of_phaseInv hb' hphase ⟨hparser', hjudged'.1, fun _ => ⟨hall, hall ▸ hcur⟩⟩
    · have hne : s.closeTarget.walk.tidx.toNat ≠ s.closeTarget.dfuse.tcnt.toNat := by
        rw [closeTarget_tidx, closeTarget_dfuse]
        exact fun heq => hmore (BitVec.eq_of_toNat_eq (heq.trans (BitVec.toNat_setWidth_of_le (by decide)).symm))
      have hbody : s.closeTarget.walk.cur.toNat + 16 ≤ s.closeTarget.flen.toNat := by
        rw [closeTarget_cur, closeTarget_flen, hend]
        exact hinside.body
      have hle : s.closeTarget.walk.tidx.toNat ≤ s.closeTarget.dfuse.tcnt.toNat := by
        rw [htidx, closeTarget_dfuse]
        exact hinside.tidx
      exact inv_of_phaseInv hb' hphase
        ⟨hparser', hjudged', by rwa [closeTarget_outValid], hcur, hbody, Nat.lt_of_le_of_ne hle hne⟩
  | rests => exact h

/-- Every transition keeps the invariant. -/
theorem transition_inv (h : s.Inv) : (transition s).Inv := advance_inv (quiet_inv h) rfl (transition_advance s)

end

/-! ## Every step keeps the invariant -/

/-- The responses do not enter the invariant. -/
theorem respond_inv {s : State} (h : s.Inv) (v : Word) : (s.respond v).Inv := h

theorem illegalCommand_inv {s : State} (h : s.Inv) (w0 : Word) : (illegalCommand w0 s).Inv :=
  respond_inv (raise_inv h (by decide) 0 0 w0) _

/-- MATCH and CHECKED may change if MATCH stays within CHECKED; the CRC unit does not enter the invariant. -/
theorem checkFlags_inv {s : State} (h : s.Inv) {crc : CrcRegs} {m c : Bool} (hm : m = true → c = true) :
    { s with crc := crc, status := { s.status with matched := m, checked := c } }.Inv := by
  obtain ⟨hfile, hpend, hrecord, ⟨-, hcrc⟩, hrest⟩ := h
  exact ⟨hfile, hpend, hrecord, ⟨hm, hcrc⟩, hrest⟩

theorem crcRangeRule_inv {s : State} (h : s.Inv) : (crcRangeRule s).Inv := by
  unfold crcRangeRule
  split
  · exact raise_inv h (by decide) ..
  · exact h

theorem inParse_inv {s : State} (h : s.Inv) (i : Instr) {body : State → State} (hb : (body s).Inv) :
    (inParse i body s).Inv := by
  unfold inParse
  split
  · exact raise_inv h (by decide) ..
  · exact hb

theorem prsStartRule_inv {s : State} (h : s.Inv) (hparser : s.cfg.hasParser = true) : (prsStartRule s).Inv :=
  have hb := h.base
  have hverdict : ¬ ((prsStartRule s).status.crcValid = true ∧ (prsStartRule s).status.warnCrc = true) := by
    simp [prsStartRule, Status.parseStart]
  inv_of_phaseInv (p := .suffix) ⟨hb.file, hb.pend, hb.record, hb.checked, hverdict⟩ rfl ⟨hparser, rfl, rfl, rfl, rfl⟩

/-- Without an active parse nothing of the invariant speaks of FLEN. -/
theorem writeReg_inv {s : State} (h : s.Inv) {r : Reg} (hr : r = .flen → s.status.phase.active = false) (v : Word) :
    (s.writeReg r v).Inv := by
  cases r with
  | flen =>
    have hinactive := hr rfl
    have hb := h.base
    cases hph : s.status.phase with
    | idle => exact inv_of_phaseInv (p := .idle) (hb.of_view rfl) hph (h.atPhase hph)
    | done => exact inv_of_phaseInv (p := .done) (hb.of_view rfl) hph (h.atPhase hph)
    | failed => exact inv_of_phaseInv (p := .failed) (hb.of_view rfl) hph (h.atPhase hph)
    | _ => simp [hph, Phase.active] at hinactive
  | _ => exact h

theorem wrRule_inv {s : State} (h : s.Inv) (r : Reg) (v : Word) : (wrRule r v s).Inv := by
  unfold wrRule
  split
  · exact raise_inv h (by decide) ..
  next hidle => exact writeReg_inv h (fun hr => by simpa [hr] using hidle) v

theorem resetIn_inv (c : Config) {m : Memory} (hm : m.wf = true) (port : List HostMove) (rs : List Word) :
    { State.resetIn c with file := m, port := port, responses := rs }.Inv := by
  have hbase : { State.resetIn c with file := m, port := port, responses := rs }.BaseInv :=
    ⟨hm, rfl, ⟨fun _ => rfl, fun hf => by cases hf⟩, fun hf => (by cases hf), by simp [State.resetIn]⟩
  exact inv_of_phaseInv (p := .idle) hbase rfl
    ⟨⟨rfl, rfl, rfl, rfl⟩, fun _ => ⟨rfl, rfl, rfl, rfl, rfl, rfl, rfl, rfl, rfl, rfl, rfl⟩⟩

theorem hardReset_inv {s : State} (h : s.FileInv) : s.hardReset.Inv := resetIn_inv s.cfg h s.port s.responses

/-- The commands of the parser are legal only with the parser (R85 (e)). -/
theorem hasParser_of_legal {i : Instr} {c : Config} (hi : i.isParser = true) (h : i.legal c = true) :
    c.hasParser = true := by
  simp_all [Instr.legal]

/-- The rule of a legal command keeps the invariant. -/
theorem ruleOf_inv {i : Instr} {s : State} (h : s.Inv) (hlegal : i.legal s.cfg = true) : (ruleOf i s).Inv := by
  have loop (stop : State → Bool) : (transitionsUntil stop transitionLimit s).Inv :=
    transitionsUntil_keeps (P := State.Inv) (fun _ => transition_inv) stop transitionLimit s h
  cases i with
  | crcInit => exact checkFlags_inv h (fun hm => by cases hm)
  | crcCheck => exact checkFlags_inv h (fun _ => rfl)
  | crcRange => exact crcRangeRule_inv h
  | prsStart => exact prsStartRule_inv h (hasParser_of_legal rfl hlegal)
  | prsStep => exact inParse_inv h .prsStep (transition_inv h)
  | prsNext => exact inParse_inv h .prsNext (loop nextStop)
  | prsRun => exact inParse_inv h .prsRun (loop runStop)
  | prsPeek =>
    obtain ⟨hfile, hpend, hrecord, hcrc, hkind, -, hrest⟩ := h
    have hparser : s.cfg.hasParser = true := hasParser_of_legal rfl hlegal
    exact ⟨hfile, hpend, hrecord, hcrc, hkind, fun hc => absurd (hparser.symm.trans hc) (by decide), hrest⟩
  | wr r v => exact wrRule_inv h r v
  | fclr =>
    obtain ⟨hfile, hpend, -, hrest⟩ := h
    exact ⟨hfile, hpend, ⟨fun _ => rfl, fun hf => by cases hf⟩, hrest⟩
  | srst => exact hardReset_inv h.base.file
  | nop | crcByte | crcWord | crcLoad | crcResume | rd => exact h

theorem exec_inv {i : Instr} {s t : State} (h : s.Inv) (ht : exec i s = .next t) : t.Inv := by
  obtain ⟨-, heq⟩ | ⟨-, -, -, heq⟩ | ⟨hlegal, -, heq⟩ := exec_cases i s <;> cases heq.symm.trans ht
  · exact illegalCommand_inv h _
  · exact respond_inv h _
  · exact respond_inv (ruleOf_inv h hlegal) _

theorem pend_inv {s : State} (h : s.Inv) {p : Option Word} (hp : p.all isTwoWord = true) :
    { s with pend := p }.Inv := by
  obtain ⟨hfile, -, hrest⟩ := h
  exact ⟨hfile, hp, hrest⟩

theorem execute_inv {s t : State} (h : s.Inv) {w0 v : Word} (ht : (execute w0 v s).outcome = .next t) : t.Inv := by
  cases hd : decodeWords w0 v with
  | ok i => exact exec_inv h (execute_outcome_of_ok hd s ▸ ht)
  | error e =>
    rw [execute_outcome_of_error hd] at ht
    cases ht
    rw [← illegalCommand_eq_afterIllegal]
    exact illegalCommand_inv h w0

theorem onWord_inv {s t : State} (h : s.Inv) {w : Word} (ht : (onWord w s).outcome = .next t) : t.Inv := by
  obtain ⟨w0, -, heq⟩ | ⟨-, htwo, heq⟩ | ⟨-, -, heq⟩ := onWord_cases w s <;> rw [heq] at ht
  · exact execute_inv (pend_inv h rfl) ht
  · cases ht
    exact pend_inv h htwo
  · exact execute_inv h ht

/-- The host's write keeps FILE canonical (R61). -/
theorem hostWrite_inv {s t : State} (h : s.Inv) {a : Word} {b : Byte} (ht : hostWrite a b s = .next t) : t.Inv := by
  unfold hostWrite at ht
  split at ht
  · cases ht
  · cases ht
    obtain ⟨hfile, hrest⟩ := h
    exact ⟨Memory.write_wf hfile a.isLt b, hrest⟩

/-- Settles O56: a step executes a command, stores a first word, writes FILE or resets, and each keeps the invariant. -/
theorem everyStepKeepsTheInvariant : Obligations.EveryStepKeepsTheInvariant := by
  intro s t h ht
  rw [step_eq_outcome] at ht
  unfold takeMove at ht
  split at ht
  · cases ht
    exact h
  next rest _ => exact onWord_inv (s := { s with port := rest }) h ht
  · cases ht
    exact hardReset_inv h.base.file
  · cases ht
    exact hardReset_inv h.base.file
  next rest _ => exact hostWrite_inv (s := { s with port := rest }) h ht

end Sys2Proof.Machine
end

section
/-!
SUPPORT. The PRS.* commands (41_parser.md R132 to R144): what each does where it is performed, the transition of each
phase in the claims' terms, the family's frame, and the statements on them.
-/

namespace Sys2Proof.Machine

/-! ## Performed or rejected -/

theorem legal_of_isParser {i : Instr} (h : i.isParser = true) {c : Config} (hc : c.hasParser = true) :
    i.legal c = true := by
  cases i <;> simp_all [Instr.isParser, Instr.legal, Instr.wellFormed]

section
variable {i : Instr} {s : State}

theorem exec_parser_rejected (hi : i.isParser = true) (hr : runsInFault i = false) (hparser : s.cfg.hasParser = true)
    (hf : s.status.fault = true) : exec i s = .next s.respondStatus :=
  exec_rejected (legal_of_isParser hi hparser) hr hf

theorem exec_parser_performed (hi : i.isParser = true) (hparser : s.cfg.hasParser = true)
    (hf : s.status.fault = false ∨ runsInFault i = true) : exec i s = .next (ruleOf i s).respondStatus :=
  exec_performed (legal_of_isParser hi hparser) (by rintro r rfl; cases hi) hf

theorem inParse_idle (hph : s.status.phase = .idle) (body : State → State) :
    inParse i body s = raise .sequenceError 0 0 i.word0 s := if_pos hph

theorem inParse_active (hph : s.status.phase ≠ .idle) (body : State → State) : inParse i body s = body s := if_neg hph

/-- PRS.STEP, PRS.NEXT and PRS.RUN in IDLE (R133, R142, R143). -/
theorem exec_parse_in_idle (hi : i ∈ [Instr.prsStep, .prsNext, .prsRun]) (hparser : s.cfg.hasParser = true)
    (hf : s.status.fault = false) (hph : s.status.phase = .idle) :
    exec i s = .next (s.faulted .sequenceError 0 0 i.word0).respondStatus := by
  simp only [List.mem_cons, List.not_mem_nil, or_false] at hi
  obtain rfl | rfl | rfl := hi <;>
    rw [exec_parser_performed rfl hparser (.inl hf), ruleOf, inParse_idle hph, raise_eq_faulted hf]

theorem exec_prsStep (hparser : s.cfg.hasParser = true) (hf : s.status.fault = false) (hph : s.status.phase ≠ .idle) :
    exec .prsStep s = .next (transition s).respondStatus := by
  rw [exec_parser_performed rfl hparser (.inl hf), ruleOf, inParse_active hph]

/-- PRS.STEP does the rule of the phase (R133). -/
theorem exec_prsStep_eq {p : Phase} {t : State} (hparser : s.cfg.hasParser = true) (hf : s.status.fault = false)
    (hph : s.status.phase = p) (hidle : p ≠ .idle) (ht : phaseRule p s.quiet = t) :
    exec .prsStep s = .next t.respondStatus := by
  rw [exec_prsStep hparser hf (hph ▸ hidle), transition_eq_phaseRule, hph, ht]

end

/-! ## PRS.START, PRS.STEP and PRS.PEEK -/

/-- Settles O25: the rule is the statement's pseudocode. -/
theorem prsStartClearsTheParser : Obligations.PrsStartClearsTheParser := by
  intro s hparser
  refine ⟨rfl, fun w v hopc hw => ?_, exec_parser_rejected rfl rfl hparser,
    fun hf => exec_parser_performed rfl hparser (.inl hf)⟩
  exact step_deliver_of_ne_pattern (r := ⟨0x10, .prsStart, .n⟩) (by decide) rfl hopc hw v s

/-- Settles O26: PRS.STEP is `transition` behind the IDLE check. -/
theorem prsStepIsOneTransition : Obligations.PrsStepIsOneTransition := by
  intro s hparser
  refine ⟨rfl, fun w v hopc hw => ?_, exec_parser_rejected rfl rfl hparser, exec_parse_in_idle (by simp) hparser,
    exec_prsStep hparser⟩
  exact step_deliver_of_ne_pattern (r := ⟨0x11, .prsStep, .n⟩) (by decide) rfl hopc hw v s

/-- "DfuSe" is found exactly where the first five bytes are those (R136, R144). -/
theorem Memory.isDfuse_iff (m : Memory) : m.isDfuse = true ↔ m.bytes 0 5 = [0x44, 0x66, 0x75, 0x53, 0x65] := by
  rw [Memory.isDfuse, decide_eq_true_iff, Memory.mismatch_none]
  rfl

/-- Settles O37: PRS.PEEK runs in a fault too, and compares five bytes only where there are five. -/
theorem prsPeekDetectsDfuse : Obligations.PrsPeekDetectsDfuse := by
  intro s hparser
  refine ⟨rfl, fun w v hopc hw => ?_, ?_⟩
  · exact step_deliver_of_ne_pattern (r := ⟨0x14, .prsPeek, .n⟩) (by decide) rfl hopc hw v s
  · have hpeek : (decide (5 ≤ s.flen.toNat) && s.file.isDfuse) =
        decide (5 ≤ s.flen.toNat ∧ s.file.bytes 0 5 = [0x44, 0x66, 0x75, 0x53, 0x65]) := by
      rw [Bool.eq_iff_iff, Bool.and_eq_true, decide_eq_true_iff, decide_eq_true_iff, s.file.isDfuse_iff]
    rw [exec_parser_performed rfl hparser (.inr rfl), ruleOf, prsPeekRule, hpeek]

/-! ## The words of a failing transition -/

/-- A transition that fails with no fault recorded, as the claims write it (41_parser.md, `fail`). -/
theorem fail_quiet {s : State} (hf : s.status.fault = false) (e : FaultCode) (off exp act : Nat) :
    fail e (BitVec.ofNat 32 off) (BitVec.ofNat 32 exp) (BitVec.ofNat 32 act) s.quiet = s.parseFailed e off exp act := by
  simp [fail, raise, State.quiet, State.parseFailed, State.setPhase, hf]

theorem ofNat_toNat_word (w : Word) : BitVec.ofNat 32 w.toNat = w := by simp

theorem ofNat_toNat_byte (b : Byte) : BitVec.ofNat 32 b.toNat = b.setWidth 32 := by simp

/-- With a suffix in the file the exact comparison with bodyEnd is one of natural numbers (R66, R131). -/
theorem gt_bodyEnd_iff {s : State} (h : 16 ≤ s.flen.toNat) (n : Nat) :
    (n : Int) > s.bodyEnd ↔ s.flen.toNat - 16 < n := by
  rw [State.bodyEnd, Config.suffixLen]
  omega

theorem narrow_bodyEnd_sub {s : State} (h : 16 ≤ s.flen.toNat) {n : Nat} (hn : n ≤ s.flen.toNat - 16) :
    narrow (s.bodyEnd - n) = BitVec.ofNat 32 (s.flen.toNat - 16 - n) := by
  have hbody : s.bodyEnd = ((s.flen.toNat - 16 : Nat) : Int) := by
    rw [State.bodyEnd, Config.suffixLen]
    omega
  rw [hbody, narrow_sub hn]

theorem narrow_bodyEnd {s : State} (h : 16 ≤ s.flen.toNat) :
    narrow s.bodyEnd = BitVec.ofNat 32 (s.flen.toNat - 16) := by
  simpa using narrow_bodyEnd_sub h (Nat.zero_le _)

/-- `mismatch` finds the first byte that differs (R134, R138). -/
theorem Memory.mismatch_first {m : Memory} {a k : Nat} {bs : List Byte} (hk : k < bs.length)
    (hpre : m.bytes a k = bs.take k) (hne : m.read (a + k) ≠ bs.getD k 0) :
    m.mismatch a bs = some (a + k, bs.getD k 0, m.read (a + k)) := by
  induction bs generalizing a k with
  | nil => simp at hk
  | cons b bs ih =>
    cases k with
    | zero =>
      simp only [Nat.add_zero, List.getD_cons_zero] at hne
      simp [Memory.mismatch, hne]
    | succ k =>
      simp only [Memory.bytes, List.range'_succ, List.map_cons, List.take_succ_cons, List.cons.injEq] at hpre
      obtain ⟨hb, hrest⟩ := hpre
      simp only [List.getD_cons_succ, ← Nat.succ_add_eq_add_succ] at hne ⊢
      rw [Memory.mismatch, if_pos hb]
      exact ih (by simpa using hk) hrest hne

/-! ## SUFFIX -/

/-- The suffix fields as the claims write them (R134, R69). -/
theorem latchSuffix_eq (s : State) :
    let p := s.flen.toNat - 16
    s.latchSuffix = { s with suffix :=
      { sdp := (s.file.readLE (p + 2) 2).setWidth 16 ++ (s.file.readLE p 2).setWidth 16
        svd := (s.file.readLE (p + 6) 2).setWidth 16 ++ (s.file.readLE (p + 4) 2).setWidth 16
        slen := s.file.read (p + 11)
        scrc := s.file.readLE (p + 12) 4 } } := by
  simp [State.latchSuffix, suffixAt, halves, BitVec.setWidth_eq_extractLsb']

theorem transSuffix_bad {s : State} (hf : s.status.fault = false) (hlen : 16 ≤ s.flen.toNat) {k : Nat} (hk : k < 3)
    (hpre : s.file.bytes (s.flen.toNat - 16 + 8) k = sigSuffix.take k)
    (hne : s.file.read (s.flen.toNat - 16 + 8 + k) ≠ sigSuffix.getD k 0) :
    transSuffix s.quiet = s.latchSuffix.parseFailed .badSignature (s.flen.toNat - 16 + 8 + k)
      (sigSuffix.getD k 0).toNat (s.file.read (s.flen.toNat - 16 + 8 + k)).toNat := by
  have hfail := fail_quiet (s := s.latchSuffix) hf .badSignature (s.flen.toNat - 16 + 8 + k)
    (sigSuffix.getD k 0).toNat (s.file.read (s.flen.toNat - 16 + 8 + k)).toNat
  rw [ofNat_toNat_byte, ofNat_toNat_byte, ← narrow_natCast] at hfail
  simp only [transSuffix, quiet_flen, quiet_file, Config.suffixLen, if_neg (Nat.not_lt.2 hlen),
    Memory.mismatch_first (bs := sigSuffix) hk hpre hne]
  exact hfail

theorem transSuffix_good {s : State} (hlen : 16 ≤ s.flen.toNat)
    (hsig : s.file.bytes (s.flen.toNat - 16 + 8) 3 = sigSuffix) :
    transSuffix s.quiet = s.latchSuffix.quiet.setPhase .sufcrc := by
  simp only [transSuffix, quiet_flen, quiet_file, Config.suffixLen, if_neg (Nat.not_lt.2 hlen),
    (Memory.mismatch_none s.file _ sigSuffix).2 hsig]
  rfl

/-- Settles O27: the latch, then the three signature bytes in order. -/
theorem suffixTransition : Obligations.SuffixTransition := by
  intro s hparser hf hph p f latched bad
  have hlatched : s.latchSuffix = latched := latchSuffix_eq s
  have hbad (hlen : 16 ≤ s.flen.toNat) (k : Nat) (hk : k < 3) (hpre : f.bytes (p + 8) k = sigSuffix.take k)
      (hne : f.read (p + 8 + k) ≠ sigSuffix.getD k 0) : bad k (sigSuffix.getD k 0) :=
    exec_prsStep_eq hparser hf hph (by decide) ((transSuffix_bad hf hlen hk hpre hne).trans (by rw [hlatched]))
  split_ifs with hshort h0 h1 h2
  · refine exec_prsStep_eq hparser hf hph (by decide) ?_
    have hfail := fail_quiet hf .truncatedFile 0 16 s.flen.toNat
    rw [ofNat_toNat_word] at hfail
    exact (if_pos hshort).trans hfail
  · exact hbad (by omega) 0 (by decide) rfl h0
  · have hpre : f.bytes (p + 8) 1 = sigSuffix.take 1 := by simpa [Memory.bytes, sigSuffix] using h0
    exact hbad (by omega) 1 (by decide) hpre h1
  · have hpre : f.bytes (p + 8) 2 = sigSuffix.take 2 := by
      simpa [Memory.bytes, List.range'_succ, sigSuffix] using And.intro (not_not.1 h0) (not_not.1 h1)
    exact hbad (by omega) 2 (by decide) hpre h2
  · refine exec_prsStep_eq hparser hf hph (by decide) ((transSuffix_good (by omega) ?_).trans ?_)
    · simp_all [Memory.bytes, List.range'_succ, sigSuffix, f, p]
    · rw [hlatched]
      rfl

/-! ## SUFCRC and PREFIX -/

/-- Settles O28: the body is absorbed from INIT, and RES is compared with SCRC. -/
theorem sufcrcTransition : Obligations.SufcrcTransition := by
  intro s hinv hf hph acc m
  obtain ⟨hparser, -, hlen⟩ := hinv.atPhase hph
  have hacc : s.file.absorb 0 (s.flen.toNat - 4) Config.init = acc := s.file.absorb_eq 0 _ _
  have hcnt : narrow ((s.flen.toNat : Int) - 4) = BitVec.ofNat 32 (s.flen.toNat - 4) := narrow_sub (b := 4) (by omega)
  refine exec_prsStep_eq hparser hf hph (by decide) ?_
  change transSufcrc s.quiet = _
  simp only [transSufcrc, quiet_file, quiet_flen, hacc, hcnt]
  rfl

/-- PREFIX without "DfuSe" (R136). -/
theorem transPrefix_plain {s : State} (h : s.file.isDfuse = false) : transPrefix s.quiet = s.quiet.foundPlain := by
  simp only [transPrefix, quiet_file, h, Bool.false_eq_true, if_false]
  rfl

/-- PREFIX with "DfuSe", its three checks in order (R136). -/
theorem transPrefix_dfuse {s : State} (hlen : 16 ≤ s.flen.toNat) (hdfuse : s.file.isDfuse = true) :
    transPrefix s.quiet =
    if s.flen.toNat - 16 < 11 then
      fail .truncatedFile (BitVec.ofNat 32 0) (BitVec.ofNat 32 11) (BitVec.ofNat 32 (s.flen.toNat - 16))
        s.foundDfuse.quiet
    else if s.flen.toNat - 16 < (s.file.readLE 6 4).toNat then
      fail .malformedPrefix (BitVec.ofNat 32 6) (BitVec.ofNat 32 (s.flen.toNat - 16))
        (BitVec.ofNat 32 (s.file.readLE 6 4).toNat) s.latchPrefix.quiet
    else if s.file.read 10 = 0 then
      fail .malformedPrefix (BitVec.ofNat 32 10) (BitVec.ofNat 32 1) (BitVec.ofNat 32 0) s.latchPrefix.quiet
    else s.quiet.beginWalk := by
  have hprefix : (Config.dfusePrefixLen : Int) > s.bodyEnd ↔ s.flen.toNat - 16 < 11 := gt_bodyEnd_iff hlen 11
  simp only [transPrefix, quiet_file, quiet_bodyEnd, hdfuse, if_true, hprefix, gt_bodyEnd_iff hlen, narrow_bodyEnd hlen,
    ofNat_toNat_word]
  rfl

/-- Settles O29: the five bytes decide the path, and the checks come in the order of `transPrefix_dfuse`. -/
theorem prefixTransition : Obligations.PrefixTransition := by
  intro s hinv hf hph f bodyEnd isize
  have hsize : s.file.readLE 6 4 = isize := rfl
  clear_value isize
  obtain ⟨hparser, -, -, hlen⟩ := hinv.atPhase hph
  have hstep {t : State} (ht : transPrefix s.quiet = t) : exec .prsStep s = .next t.respondStatus :=
    exec_prsStep_eq hparser hf hph (by decide) ht
  refine ite_prop_iff_and.2 ⟨fun hplain => hstep ?_, fun hfound => ?_⟩
  · have hnot : s.file.isDfuse = false := by rwa [← Bool.not_eq_true, s.file.isDfuse_iff]
    exact transPrefix_plain hnot
  have heq := transPrefix_dfuse hlen (s.file.isDfuse_iff.2 (not_not.1 hfound))
  have hlatch : s.latchPrefix = { s.foundDfuse with
    dfuse := { tcnt := s.file.read 10, isize := isize, pver := s.file.read 5 } } := by rw [← hsize, State.latchPrefix]
  rw [hsize, hlatch] at heq
  refine ite_prop_iff_and.2 ⟨fun hshort => hstep ?_, fun hfits => ?_⟩
  · exact heq.trans ((if_pos hshort).trans (fail_quiet (s := s.foundDfuse) hf ..))
  rw [if_neg hfits] at heq
  refine ite_prop_iff_and.2 ⟨fun hlong => hstep ?_, fun hisize => ?_⟩
  · exact heq.trans ((if_pos hlong).trans (fail_quiet (s := { s.foundDfuse with dfuse := _ }) hf ..))
  rw [if_neg hisize] at heq
  refine ite_prop_iff_and.2 ⟨fun hnone => hstep ?_, fun hsome => hstep ?_⟩
  · exact heq.trans ((if_pos hnone).trans (fail_quiet (s := { s.foundDfuse with dfuse := _ }) hf ..))
  · rw [if_neg hsome, State.beginWalk, show s.quiet.latchPrefix = s.latchPrefix.quiet from rfl, hlatch] at heq
    exact heq

/-! ## PLAIN -/

/-- Settles O30: bodyEnd is FLEN - 16 with a suffix in the file. -/
theorem plainTransition : Obligations.PlainTransition := by
  intro s hinv hf hph
  obtain ⟨hparser, -, -, hlen⟩ := hinv.atPhase hph
  refine exec_prsStep_eq hparser hf hph (by decide) ?_
  change transPlain s.quiet = _
  simp only [transPlain, quiet_bodyEnd, narrow_bodyEnd hlen]
  rfl

/-! ## TARGET, ELEMENT and TCLOSE -/

section
variable {s : State} (hlen : 16 ≤ s.flen.toNat)
include hlen

/-- TARGET where the header does not fit (R138). -/
theorem transTarget_truncated (hcur : s.walk.cur.toNat + 16 ≤ s.flen.toNat) (hf : s.status.fault = false)
    (hhdr : s.flen.toNat - 16 < s.spanStart) :
    transTarget s.quiet = s.parseFailed .truncatedFile s.walk.cur.toNat s.cfg.targetHdrLen
      (s.flen.toNat - 16 - s.walk.cur.toNat) := by
  have hhdr' : ((s.walk.cur.toNat + s.cfg.targetHdrLen : Nat) : Int) > s.bodyEnd := (gt_bodyEnd_iff hlen _).2 hhdr
  simp only [transTarget, quiet_walk, quiet_cfg, quiet_bodyEnd, hhdr', if_true, narrow_natCast,
    narrow_bodyEnd_sub hlen (Nat.le_sub_of_add_le hcur)]
  exact fail_quiet hf ..

/-- TARGET where the header fits is decided by its first six bytes (R138). -/
theorem transTarget_header (hhdr : s.spanStart ≤ s.flen.toNat - 16) :
    transTarget s.quiet = match s.file.mismatch s.walk.cur.toNat sigTarget with
      | some (a, want, got) =>
        fail .badTargetSignature (BitVec.ofNat 32 a) (BitVec.ofNat 32 want.toNat) (BitVec.ofNat 32 got.toNat) s.quiet
      | none => targetSpan s.spanStart s.targetHdr s.quiet := by
  have hhdr' : ¬ ((s.walk.cur.toNat + s.cfg.targetHdrLen : Nat) : Int) > s.bodyEnd := by
    rw [gt_bodyEnd_iff hlen]
    exact Nat.not_lt.2 hhdr
  simp only [transTarget, quiet_walk, quiet_cfg, quiet_file, quiet_bodyEnd, hhdr', if_false, narrow_natCast,
    ofNat_toNat_byte]
  rfl

/-- TARGET where the span does not fit, and where it does (R138). -/
theorem targetSpan_quiet (hhdr : s.spanStart ≤ s.flen.toNat - 16) :
    targetSpan s.spanStart s.targetHdr s.quiet =
      if s.flen.toNat - 16 < s.spanEnd then
        fail .truncatedFile (BitVec.ofNat 32 s.spanStart) (BitVec.ofNat 32 s.targetHdr.tsize.toNat)
          (BitVec.ofNat 32 (s.flen.toNat - 16 - s.spanStart)) (targetLatch s.targetHdr s).quiet
      else targetEnter s.spanStart s.targetHdr (targetLatch s.targetHdr s.quiet) := by
  simp only [targetSpan, quiet_bodyEnd, gt_bodyEnd_iff hlen, narrow_natCast, ofNat_toNat_word,
    narrow_bodyEnd_sub hlen hhdr]
  rfl

end

/-- NB as the claims write it (R5). -/
theorem nb_eq (c : Config) : c.nb = if c.namedBytes = .four then 4 else 1 := by
  rw [Config.nb]
  cases c.namedBytes <;> rfl

/-- What TARGET latches, as the claims write it (R138, R71). -/
theorem targetLatch_eq (s : State) (h : TargetHdr) :
    targetLatch h s = { s with
      desc := { s.desc with tgt := { index := s.walk.tidx.setWidth 8, alt := h.alt, named := decide (h.named ≠ 0) } }
      walk := { s.walk with nbel := h.nbel, eidx := 0, tsum := s.walk.tsum + h.tsize } } := by
  have hnamed : (h.named != 0) = decide (h.named ≠ 0) := by simp [bne, Bool.beq_eq_decide_eq]
  rw [targetLatch, hnamed, BitVec.setWidth_eq_extractLsb' (by decide)]

/-- Settles O31: header, signature, latch and span in order. -/
theorem targetTransition : Obligations.TargetTransition := by
  intro s hinv hf hph f p nb th bodyEnd tag tsize nbel latched
  obtain ⟨hparser, -, -, hbefore⟩ := hinv.atPhase hph
  have hlen : 16 ≤ s.flen.toNat := le_of_add_le_right hbefore.body
  have hnb : s.cfg.nb = nb := nb_eq s.cfg
  have hth : s.cfg.targetHdrLen = th := congrArg (270 + ·) hnb
  have hstart : s.spanStart = p + th := congrArg (p + ·) hth
  have hhdr : s.targetHdr = ⟨f.read (p + 6), f.readLE (p + 7) nb, tsize, nbel⟩ := by
    rw [State.targetHdr, targetHdrAt, hnb]
  have hend : s.spanEnd = p + th + tsize.toNat := by rw [State.spanEnd, hstart, hhdr]
  have hlatched : targetLatch s.targetHdr s = latched := by rw [targetLatch_eq, hhdr]
  have hstep {t : State} (ht : transTarget s.quiet = t) : exec .prsStep s = .next t.respondStatus :=
    exec_prsStep_eq hparser hf hph (by decide) ht
  clear_value tsize nbel
  refine ite_prop_iff_and.2 ⟨fun hlong => hstep ?_, fun hfits => ?_⟩
  · rw [← hth]
    exact transTarget_truncated hlen hbefore.body hf (hstart ▸ hlong)
  have hfits' : s.spanStart ≤ s.flen.toNat - 16 := hstart ▸ Nat.not_lt.1 hfits
  have heq := transTarget_header hlen hfits'
  refine ite_prop_iff_and.2 ⟨fun _ k hk hpre hne => hstep ?_, fun htag => ?_⟩
  · rw [Memory.mismatch_first (bs := sigTarget) hk hpre hne] at heq
    exact heq.trans (fail_quiet hf ..)
  rw [(Memory.mismatch_none s.file _ sigTarget).2 (not_not.1 htag)] at heq
  replace heq := heq.trans (targetSpan_quiet hlen hfits')
  rw [hend, hstart] at heq
  refine ite_prop_iff_and.2 ⟨fun hlong => hstep ?_, fun hspan => hstep ?_⟩
  · rw [if_pos hlong, hlatched, hhdr] at heq
    exact heq.trans (fail_quiet (s := latched) hf ..)
  · rw [if_neg hspan, show targetLatch s.targetHdr s.quiet = (targetLatch s.targetHdr s).quiet from rfl, hlatched, hhdr,
      targetEnter, ← Nat.cast_add, narrow_natCast, narrow_natCast] at heq
    exact heq

/-- ELEMENT where CUR has not passed TEND, its two checks in order (R139). -/
theorem transElement_quiet {s : State} (hcur : s.walk.cur.toNat ≤ s.walk.tend.toNat) : transElement s.quiet =
    if s.walk.cur.toNat + 8 > s.walk.tend.toNat then
      fail .truncatedTarget (BitVec.ofNat 32 s.walk.cur.toNat) (BitVec.ofNat 32 8)
        (BitVec.ofNat 32 (s.walk.tend.toNat - s.walk.cur.toNat)) s.quiet
    else if s.elementEnd > s.walk.tend.toNat then
      fail .truncatedTarget (BitVec.ofNat 32 (s.walk.cur.toNat + 8)) (BitVec.ofNat 32 s.elementSize.toNat)
        (BitVec.ofNat 32 (s.walk.tend.toNat - (s.walk.cur.toNat + 8))) s.quiet
    else s.quiet.emitElement := by
  refine ite_congr rfl (fun _ => ?_) fun hfits => ?_
  · rw [narrow_natCast, quiet_walk, narrow_sub hcur]
    rfl
  · have hact := narrow_sub (Nat.not_lt.1 hfits)
    have hoff : narrow (s.walk.cur.toNat + 8) = BitVec.ofNat 32 (s.walk.cur.toNat + 8) := narrow_natCast _
    have hnext : narrow (s.walk.cur.toNat + 8 + s.elementSize.toNat) = BitVec.ofNat 32 s.elementEnd := narrow_natCast _
    refine ite_congr rfl (fun _ => ?_) fun _ => ?_
    · rw [ofNat_toNat_word, ← hact, ← hoff]
      rfl
    · rw [State.emitElement]
      exact congrArg₂ (fun off cur => ({ s.quiet with
        desc := { s.desc with elem := s.walk.eidx, addr := s.file.readLE s.walk.cur.toNat 4, off := off,
                              size := s.elementSize }
        walk := { s.walk with cur := cur, eidx := s.walk.eidx + 1 }
        status := { s.quiet.status with
          addrKnown := true, outValid := true,
          phase := if s.walk.eidx + 1 = s.walk.nbel then .tclose else .element } } : State)) hoff hnext

/-- Settles O32: the header, then the data must fit in the span. -/
theorem elementTransition : Obligations.ElementTransition := by
  intro s hinv hf hph f p tend size
  obtain ⟨hparser, -, hinside, helem⟩ := hinv.atPhase hph
  have hlast : s.walk.eidx + 1 = s.walk.nbel ↔ s.walk.eidx.toNat + 1 = s.walk.nbel.toNat := by
    have hnbel := s.walk.nbel.isLt
    rw [← BitVec.toNat_inj, BitVec.toNat_add_of_lt (by simp; omega)]
    rfl
  have hstep {t : State} (ht : transElement s.quiet = t) : exec .prsStep s = .next t.respondStatus :=
    exec_prsStep_eq hparser hf hph (by decide) ht
  have hsize : s.elementSize = size := rfl
  have hend : s.elementEnd = p + 8 + size.toNat := rfl
  have heq := transElement_quiet hinside.cur
  clear_value size
  refine ite_prop_iff_and.2 ⟨fun hhdr => hstep ?_, fun hhdr => ?_⟩
  · exact heq.trans ((if_pos hhdr).trans (fail_quiet hf ..))
  rw [if_neg hhdr, hend, hsize] at heq
  refine ite_prop_iff_and.2 ⟨fun hlong => hstep ?_, fun hdata => hstep ?_⟩
  · exact heq.trans ((if_pos hlong).trans (fail_quiet hf ..))
  · rw [if_neg hdata, State.emitElement, show s.quiet.elementSize = size from hsize,
      show s.quiet.elementEnd = p + 8 + size.toNat from hend] at heq
    simp only [quiet_walk, quiet_file, hlast] at heq
    exact heq

/-- Settles O33: the span must be consumed exactly. -/
theorem tcloseTransition : Obligations.TcloseTransition := by
  intro s hinv hf hph
  obtain ⟨hparser, -, hinside⟩ := hinv.atPhase hph
  have hlast : s.walk.tidx + 1 = s.dfuse.tcnt.setWidth 32 ↔ s.walk.tidx.toNat + 1 = s.dfuse.tcnt.toNat := by
    have htcnt := s.dfuse.tcnt.isLt
    have htidx := hinside.tidx
    rw [← BitVec.toNat_inj, BitVec.toNat_setWidth_of_le (by decide), BitVec.toNat_add_of_lt (by simp; omega)]
    rfl
  refine ite_prop_iff_and.2 ⟨fun hne => ?_, fun heq => ?_⟩ <;> refine exec_prsStep_eq hparser hf hph (by decide) ?_
  · have hfail := fail_quiet hf .truncatedTarget s.walk.cur.toNat s.walk.tend.toNat s.walk.cur.toNat
    rw [ofNat_toNat_word, ofNat_toNat_word] at hfail
    exact (if_pos hne).trans hfail
  · refine (if_neg heq).trans ?_
    simp only [quiet_walk, quiet_dfuse, hlast]
    rfl

/-! ## DONE and FAILED -/

/-- A loop stops after the first transition where its condition holds then (R142, R143). -/
theorem transitionsUntil_at_once {stop : State → Bool} {n : Nat} {s : State} (hn : n ≠ 0)
    (hstop : stop (transition s) = true) : transitionsUntil stop n s = transition s := by
  obtain ⟨n, rfl⟩ := Nat.exists_eq_succ_of_ne_zero hn
  exact if_pos hstop

/-- Settles O34: the loops stop after the one transition that clears OUT_VALID. -/
theorem terminalPhasesStay : Obligations.TerminalPhasesStay := by
  intro s hparser hf hph i hi
  have hterm : s.status.phase.terminal = true := by obtain hph | hph := hph <;> rw [hph] <;> rfl
  have hidle : s.status.phase ≠ .idle := by rintro hidle; simp [hidle] at hph
  have hquiet := transition_of_terminal hterm
  have hloop {stop : State → Bool} (hstop : stop s.quiet = true) :
      transitionsUntil stop transitionLimit s = s.quiet := by
    rw [transitionsUntil_at_once (by decide) (hquiet ▸ hstop), hquiet]
  have hrule : ruleOf i s = s.quiet := by
    simp only [List.mem_cons, List.not_mem_nil, or_false] at hi
    obtain rfl | rfl | rfl := hi <;> rw [ruleOf, inParse_active hidle]
    · exact hquiet
    · exact hloop (by rw [nextStop, quiet_status_phase, hterm, Bool.or_true])
    · exact hloop hterm
  have hparse : i.isParser = true := by
    simp only [List.mem_cons, List.not_mem_nil, or_false] at hi
    obtain rfl | rfl | rfl := hi <;> rfl
  rw [exec_parser_performed hparse hparser (.inl hf), hrule]
  rfl

/-! ## The family's frame -/

/-- What no PRS.* command writes: the host's side, PEND, FLEN, BASE and LEN. -/
def State.outsideParser (s : State) :=
  (s.hostSide, s.pend, s.flen, s.crc.base, s.crc.len)

theorem outsideParser_ignoresFault : IgnoresFault State.outsideParser := fun _ _ _ _ => rfl

theorem transition_outsideParser (s : State) : (transition s).outsideParser = s.outsideParser := by
  obtain ⟨-, hflen, -, hpend, -, -⟩ := transition_outside s
  obtain ⟨hbase, hlen, -⟩ := transition_base_len_peek s
  rw [State.outsideParser, transition_hostSide, hpend, hflen, hbase, hlen, State.outsideParser]

theorem ruleOf_outsideParser {i : Instr} (hi : i.isParser = true) (s : State) :
    (ruleOf i s).outsideParser = s.outsideParser := by
  cases i with
  | prsStart | prsPeek => rfl
  | prsStep | prsNext | prsRun => exact parse_keeps outsideParser_ignoresFault transition_outsideParser s (by simp)
  | _ => cases hi

/-- PRS.START and PRS.PEEK raise nothing of their own (R132, R144). -/
theorem exec_start_peek_keepsFault {i : Instr} {s t : State} (h : exec i s = .next t)
    (hi : i = .prsStart ∨ i = .prsPeek) (hparser : s.cfg.hasParser = true) : KeepsFault t s := by
  have hlegal : i.legal s.cfg = true := legal_of_isParser (by obtain rfl | rfl := hi <;> rfl) hparser
  obtain hkept | ⟨-, -, ⟨hillegal, -⟩ | ⟨hrange, -⟩ | ⟨⟨v, hwr⟩, -⟩ | ⟨hprs, -⟩ | ⟨hprs, -⟩⟩ :=
    exec_fault h (by obtain rfl | rfl := hi <;> simp)
  · exact hkept
  · simp [hlegal] at hillegal
  all_goals obtain rfl | rfl := hi <;> simp_all

/-- The flags of STATUS that PRS.PEEK leaves alone, the others put to 0. -/
def Status.outsidePeek (f : Status) : Status := { f with peek := false, fault := false }

theorem status_eq_of_outsidePeek {f g : Status} (h : f.outsidePeek = g.outsidePeek) :
    f = { g with peek := f.peek, fault := f.fault } :=
  congrArg (fun r : Status => { r with peek := f.peek, fault := f.fault }) h

/-- Settles O51: each clause is a view of the state that the rules of the commands it names keep. -/
theorem parserFamilyFrame : Obligations.ParserFamilyFrame := by
  intro i s t hmem h
  have hi : i.isParser = true := by
    simp only [List.mem_cons, List.not_mem_nil, or_false] at hmem
    obtain rfl | rfl | rfl | rfl | rfl := hmem <;> rfl
  have hkept := exec_keeps outsideParser_ignoresFault h (ruleOf_outsideParser hi s)
  simp only [State.outsideParser, State.hostSide, Prod.mk.injEq] at hkept
  obtain ⟨⟨hcfg, hfile, hport⟩, hpend, hflen, hbase, hlen⟩ := hkept
  refine ⟨⟨hcfg, hport, hpend, fun a => by rw [hfile]⟩, hflen, hbase, hlen, fun hne => ?_, fun hquiet => ?_, ?_⟩
  · have hwriter : i ∉ [Instr.prsPeek, .srst] := by cases i <;> simp_all [Instr.isParser]
    exact exec_keeps peek_ignoresFault h (ruleOf_peek hwriter s)
  · have hcases : i = .prsStart ∨ i = .prsPeek := by simpa using hquiet
    have hcrc : (ruleOf i s).crc = s.crc := by obtain rfl | rfl := hcases <;> rfl
    have hflags := exec_keeps checkFlags_ignoresFault h
      (ruleOf_checkFlags (by obtain rfl | rfl := hcases <;> simp) s)
    exact ⟨exec_keeps (f := State.crc) (fun _ _ _ _ => rfl) h hcrc, congrArg Prod.fst hflags, congrArg Prod.snd hflags,
      fun hparser => (exec_start_peek_keepsFault h hcases hparser).symm⟩
  · rintro rfl
    obtain ⟨-, hdfuse, hsuffix, hdesc, hwalk⟩ := exec_parserState h (by simp)
    have hstatus := exec_keeps (f := fun u => u.status.outsidePeek) (fun _ _ _ _ => rfl) h rfl
    exact ⟨hdfuse, hsuffix, hdesc, hwalk, status_eq_of_outsidePeek hstatus⟩

end Sys2Proof.Machine
end

section
/-!
SUPPORT. The loops of PRS.NEXT and PRS.RUN (41_parser.md R142, R143, R145): a measure that every transition of an active
parse lowers, where the loops end, and the statements on them.
-/

namespace Sys2Proof.Machine

/-! ## A measure of what is left of a parse -/

/-- No fewer than the transitions left: every TARGET and every ELEMENT raises CUR, and a TCLOSE does not follow a TCLOSE
(R145). -/
def State.fuel (s : State) : Nat :=
  match s.status.phase with
  | .suffix => 2 ^ 32 + 3
  | .sufcrc => 2 ^ 32 + 2
  | .dfusePrefix => 2 ^ 32 + 1
  | .plain => 1
  | .target | .element => 2 ^ 32 - s.walk.cur.toNat
  | .tclose => 2 ^ 32 - s.walk.cur.toNat + 1
  | .idle | .done | .failed => 0

theorem fuel_le_limit (s : State) : s.fuel ≤ transitionLimit := by
  unfold State.fuel transitionLimit
  split <;> omega

theorem fuel_of_inactive {s : State} (h : s.status.phase.active = false) : s.fuel = 0 := by
  unfold State.fuel
  cases hph : s.status.phase <;> simp_all [Phase.active]

theorem Advance.fuel_lt {s t : State} (h : Advance s t) (hactive : s.status.phase.active = true) : t.fuel < s.fuel := by
  have hcur := s.walk.cur.isLt
  cases h with
  | fails =>
    rw [fuel_of_inactive (by rw [fail_status_phase]; rfl)]
    unfold State.fuel
    cases hph : s.status.phase <;> simp_all [Phase.active]
  | readsSuffix hph => simp [State.fuel, hph]
  | judges hph => simp [State.fuel, hph, transSufcrc]
  | findsPlain hph => simp [State.fuel, hph, State.foundPlain]
  | beginsWalk hph => simp [State.fuel, hph, State.beginWalk]
  | emitsPlain hph => simp [State.fuel, hph, transPlain]
  | enters hph hspan =>
    have hnext := enterTarget_cur hspan
    have hstart : s.spanStart = s.walk.cur.toNat + (270 + s.cfg.nb) := rfl
    obtain ⟨-, hphase⟩ | ⟨-, hphase⟩ := enterTarget_phase_cases (s := s) <;>
      simp only [State.fuel, hph, hphase, hnext] <;> omega
  | emits hph hend =>
    have hnext := emitElement_cur hend
    have hdata : s.elementEnd = s.walk.cur.toNat + 8 + s.elementSize.toNat := rfl
    obtain ⟨-, hphase⟩ | ⟨-, hphase⟩ := emitElement_phase_cases (s := s) <;>
      simp only [State.fuel, hph, hphase, hnext] <;> omega
  | closes hph =>
    obtain ⟨-, hphase⟩ | ⟨-, hphase⟩ := closeTarget_phase_cases (s := s) <;>
      simp only [State.fuel, hph, hphase, closeTarget_cur] <;> omega
  | rests hph =>
    simp only [List.mem_cons, List.not_mem_nil, or_false] at hph
    obtain hph | hph | hph := hph <;> simp [hph, Phase.active] at hactive

/-- Every transition of an active parse lowers the measure. -/
theorem transition_fuel_lt {s : State} (h : s.status.phase.active = true) : (transition s).fuel < s.fuel :=
  (transition_advance s).fuel_lt h

/-- Induction along a parse (R145). -/
theorem parse_induction {P : State → Prop} (hrest : ∀ s, s.status.phase.active = false → P s)
    (hstep : ∀ s, s.status.phase.active = true → P (transition s) → P s) (s : State) : P s := by
  induction hn : s.fuel using Nat.strong_induction_on generalizing s with
  | _ n ih =>
    cases hactive : s.status.phase.active with
    | false => exact hrest s hactive
    | true => exact hstep s hactive (ih _ (hn ▸ transition_fuel_lt hactive) _ rfl)

/-- A parse does not return to IDLE (R130). -/
theorem transition_ne_idle {s : State} (h : s.status.phase ≠ .idle) : (transition s).status.phase ≠ .idle := by
  have hedge := phaseMovesAlongTheEdges s h
  intro hidle
  rw [hidle] at hedge
  cases hph : s.status.phase <;> simp [hph] at hedge h

/-! ## Where a loop ends -/

section
variable {stop : State → Bool} (hstop : ∀ u : State, u.status.phase.terminal = true → stop u = true)
include hstop

/-- A loop that stops in DONE and FAILED at the latest stops at the first state, after one transition or more, where its
condition holds (R142, R143). -/
theorem transitionsUntil_first {m : Nat} {s : State} (hidle : s.status.phase ≠ .idle) (hm : s.fuel ≤ m) (hpos : 1 ≤ m) :
    ∃ n, 1 ≤ n ∧ transitionsUntil stop m s = transitions n s ∧ stop (transitions n s) = true ∧
      ∀ k, 1 ≤ k → k < n → stop (transitions k s) = false := by
  induction m generalizing s with
  | zero => omega
  | succ m ih =>
    rw [transitionsUntil]
    cases hnow : stop (transition s) with
    | true => exact ⟨1, le_rfl, if_pos rfl, hnow, fun k h1 hk => by omega⟩
    | false =>
      have hmore {u : State} (hu : stop u = false) (hne : u.status.phase ≠ .idle) : u.status.phase.active = true :=
        (Phase.active_or_terminal hne).resolve_right fun hterm => by simp [hstop u hterm] at hu
      have hactive : s.status.phase.active = true := (Phase.active_or_terminal hidle).resolve_right fun hterm => by
        rw [transition_of_terminal hterm, hstop s.quiet hterm] at hnow
        cases hnow
      have hnext := transition_ne_idle hidle
      have hlt := transition_fuel_lt hactive
      have hlt' := transition_fuel_lt (hmore hnow hnext)
      obtain ⟨n, hn, heq, hend, hfirst⟩ := ih hnext (by omega) (by omega)
      refine ⟨n + 1, by omega, heq, hend, fun k h1 hk => ?_⟩
      obtain ⟨k, rfl⟩ := Nat.exists_eq_succ_of_ne_zero (by omega : k ≠ 0)
      by_cases hk0 : k = 0
      · subst hk0
        exact hnow
      · exact hfirst k (by omega) (by omega)

theorem transitionsUntil_limit {s : State} (hidle : s.status.phase ≠ .idle) :
    ∃ n, 1 ≤ n ∧ transitionsUntil stop transitionLimit s = transitions n s ∧ stop (transitions n s) = true ∧
      ∀ k, 1 ≤ k → k < n → stop (transitions k s) = false :=
  transitionsUntil_first hstop hidle (fuel_le_limit s) (by decide)

end

/-- What stops PRS.NEXT (R142). -/
theorem nextStop_iff (s : State) :
    nextStop s = true ↔ s.status.outValid = true ∨ s.status.phase ∈ [Phase.done, .failed] := by
  rw [nextStop, Bool.or_eq_true, Phase.terminal_iff_mem]

/-- What stops PRS.RUN (R143). -/
theorem runStop_iff (s : State) : runStop s = true ↔ s.status.phase ∈ [Phase.done, .failed] :=
  Phase.terminal_iff_mem _

/-- Settles O35: the loop of PRS.NEXT ends by its own condition. -/
theorem prsNextRunsToTheNextElement : Obligations.PrsNextRunsToTheNextElement := by
  intro s hparser
  refine ⟨rfl, fun w v hopc hw => ?_, exec_parser_rejected rfl rfl hparser, exec_parse_in_idle (by simp) hparser,
    fun hf hidle => ?_⟩
  · exact step_deliver_of_ne_pattern (r := ⟨0x12, .prsNext, .n⟩) (by decide) rfl hopc hw v s
  · obtain ⟨n, hn, heq, hend, hfirst⟩ := transitionsUntil_limit (stop := nextStop)
      (fun u hterm => by rw [nextStop, hterm, Bool.or_true]) hidle
    refine ⟨n, hn, ?_, (nextStop_iff _).1 hend, fun k h1 hk hstop => ?_⟩
    · rw [exec_parser_performed rfl hparser (.inl hf), ruleOf, inParse_active hidle, heq]
    · rw [← nextStop_iff, hfirst k h1 hk] at hstop
      cases hstop

/-- Settles O36: the loop of PRS.RUN ends by its own condition. -/
theorem prsRunRunsToTheEnd : Obligations.PrsRunRunsToTheEnd := by
  intro s hparser
  refine ⟨rfl, fun w v hopc hw => ?_, exec_parser_rejected rfl rfl hparser, exec_parse_in_idle (by simp) hparser,
    fun hf hidle => ?_⟩
  · exact step_deliver_of_ne_pattern (r := ⟨0x13, .prsRun, .n⟩) (by decide) rfl hopc hw v s
  · obtain ⟨n, hn, heq, hend, hfirst⟩ := transitionsUntil_limit (stop := runStop) (fun _ hterm => hterm) hidle
    refine ⟨n, hn, ?_, (runStop_iff _).1 hend, fun k h1 hk hstop => ?_⟩
    · rw [exec_parser_performed rfl hparser (.inl hf), ruleOf, inParse_active hidle, heq]
    · rw [← runStop_iff, hfirst k h1 hk] at hstop
      cases hstop

end Sys2Proof.Machine
end

section
/-!
SUPPORT. A whole parse (41_parser.md R145, R147): how a transition moves the walk from a state of the invariant, how
many transitions there are, and which descriptors they emit in which order.
-/

namespace Sys2Proof.Machine

/-! ## How a transition moves the walk -/

/-- The phases of the walk over the targets. -/
def Phase.walks : Phase → Bool
  | .target | .element | .tclose => true
  | .idle | .suffix | .sufcrc | .dfusePrefix | .plain | .done | .failed => false

theorem Phase.active_of_walks {p : Phase} (h : p.walks = true) : p.active = true := by
  cases p <;> simp_all [Phase.walks, Phase.active]

/-- The registers of the walk after one transition, over the natural numbers (R138 to R140, R146). -/
inductive WalkStep (s t : State) : Prop where
  | fails (hnext : t.status.phase = .failed) (hout : t.status.outValid = false)
  | enters (hph : s.status.phase = .target) (hnext : t.status.phase = .element ∨ t.status.phase = .tclose)
      (hout : t.status.outValid = false) (hcur : t.walk.cur.toNat = s.spanStart) (htend : t.walk.tend.toNat = s.spanEnd)
      (htidx : t.walk.tidx.toNat = s.walk.tidx.toNat)
      (htsum : t.walk.tsum.toNat = s.walk.tsum.toNat + s.targetHdr.tsize.toNat)
  | emits (hph : s.status.phase = .element) (hnext : t.status.phase = .element ∨ t.status.phase = .tclose)
      (hout : t.status.outValid = true) (hoff : t.desc.off.toNat = s.walk.cur.toNat + 8)
      (hcur : t.walk.cur.toNat = s.walk.cur.toNat + 8 + t.desc.size.toNat)
      (htend : t.walk.tend.toNat = s.walk.tend.toNat) (htidx : t.walk.tidx.toNat = s.walk.tidx.toNat)
      (htgt : t.desc.tgt = s.desc.tgt) (helem : t.desc.elem.toNat = s.walk.eidx.toNat)
      (heidx : t.walk.eidx.toNat = s.walk.eidx.toNat + 1) (htsum : t.walk.tsum.toNat = s.walk.tsum.toNat)
  | closes (hph : s.status.phase = .tclose) (hend : s.walk.cur.toNat = s.walk.tend.toNat)
      (hnext : t.status.phase = .target ∨ t.status.phase = .done) (hout : t.status.outValid = false)
      (hcur : t.walk.cur.toNat = s.walk.cur.toNat) (htidx : t.walk.tidx.toNat = s.walk.tidx.toNat + 1)
      (htsum : t.walk.tsum.toNat = s.walk.tsum.toNat)

theorem Advance.walkStep {s t : State} (h : s.Inv) (hquiet : s.status.outValid = false)
    (hw : s.status.phase.walks = true) (ht : Advance s t) : WalkStep s t := by
  cases ht with
  | fails _ _ hu => exact .fails (fail_status_phase ..) (by rw [fail_status_outValid, hu.flags]; exact hquiet)
  | enters hph hspan =>
    obtain ⟨-, -, -, hbefore⟩ := h.atPhase hph
    have hnext : s.enterTarget.status.phase = .element ∨ s.enterTarget.status.phase = .tclose :=
      enterTarget_phase_cases.symm.imp And.right And.right
    exact .enters hph hnext (by rwa [enterTarget_outValid]) (enterTarget_cur hspan) (enterTarget_tend hspan)
      (by rw [enterTarget_tidx]) (enterTarget_tsum_toNat hbefore hspan)
  | emits hph hend =>
    obtain ⟨-, -, hinside, helem⟩ := h.atPhase hph
    have hnext : s.emitElement.status.phase = .element ∨ s.emitElement.status.phase = .tclose :=
      emitElement_phase_cases.symm.imp And.right And.right
    have heidx := (emitElement_inside hinside helem hend).2
    exact .emits hph hnext emitElement_outValid (emitElement_off hend)
      (by rw [emitElement_cur hend, emitElement_size, State.elementEnd]) (by rw [emitElement_tend])
      (by rw [emitElement_tidx]) emitElement_tgt (by rw [emitElement_elem]) heidx (by rw [emitElement_tsum])
  | closes hph hend =>
    obtain ⟨-, -, hinside⟩ := h.atPhase hph
    have hnext : s.closeTarget.status.phase = .target ∨ s.closeTarget.status.phase = .done :=
      closeTarget_phase_cases.symm.imp And.right And.right
    exact .closes hph (by rw [hend]) hnext (by rwa [closeTarget_outValid]) (by rw [closeTarget_cur])
      (closeTarget_tidx_toNat hinside) (by rw [closeTarget_tsum])
  | rests hph =>
    simp only [List.mem_cons, List.not_mem_nil, or_false] at hph
    obtain hph | hph | hph := hph <;> simp [hph, Phase.walks] at hw
  | readsSuffix hph | judges hph | findsPlain hph | beginsWalk hph | emitsPlain hph => simp [hph, Phase.walks] at hw

/-- How a transition moves the walk, from a state of the invariant. -/
theorem transition_walkStep {s : State} (h : s.Inv) (hw : s.status.phase.walks = true) : WalkStep s (transition s) := by
  cases (transition_advance s).walkStep (quiet_inv h) rfl hw with
  | fails hnext hout => exact .fails hnext hout
  | enters hph hnext hout hcur htend htidx htsum => exact .enters hph hnext hout hcur htend htidx htsum
  | emits hph hnext hout hoff hcur htend htidx htgt helem heidx htsum =>
    exact .emits hph hnext hout hoff hcur htend htidx htgt helem heidx htsum
  | closes hph hend hnext hout hcur htidx htsum => exact .closes hph hend hnext hout hcur htidx htsum

/-- The walk keeps KIND and PVER, ISIZE and TCNT (R34, R43). -/
theorem Advance.walk_keeps {s t : State} (hw : s.status.phase.walks = true) (ht : Advance s t) :
    t.dfuse = s.dfuse ∧ t.status.kind = s.status.kind := by
  cases ht with
  | fails _ _ hu =>
    rw [fail_dfuse, fail_status_kind]
    exact hu.dfuse (by rintro hph; simp [hph, Phase.walks] at hw)
  | enters => exact ⟨enterTarget_dfuse, enterTarget_kind⟩
  | emits => exact ⟨emitElement_dfuse, emitElement_kind⟩
  | closes => exact ⟨closeTarget_dfuse, closeTarget_kind⟩
  | rests => exact ⟨rfl, rfl⟩
  | readsSuffix hph | judges hph | findsPlain hph | beginsWalk hph | emitsPlain hph => simp [hph, Phase.walks] at hw

theorem transition_walk_keeps {s : State} (hw : s.status.phase.walks = true) :
    (transition s).dfuse = s.dfuse ∧ (transition s).status.kind = s.status.kind :=
  (transition_advance s).walk_keeps (s := s.quiet) hw

theorem transition_flen (s : State) : (transition s).flen = s.flen := (transition_outside s).2.1

/-! ## The descriptors of a parse -/

theorem emitted_of_quiet {s : State} (h : s.status.outValid = false) : s.emitted = [] := by
  simp [State.emitted, h]

theorem emitted_of_valid {s : State} (h : s.status.outValid = true) : s.emitted = [s.desc] := by
  simp [State.emitted, h]

theorem descriptorsFrom_terminal {s : State} (h : s.status.phase.terminal = true) (n : Nat) :
    descriptorsFrom n s = [] := by
  cases n with
  | zero => rfl
  | succ n => exact if_pos h

theorem descriptorsFrom_active {s : State} (h : s.status.phase.active = true) (n : Nat) :
    descriptorsFrom (n + 1) s = (transition s).emitted ++ descriptorsFrom n (transition s) :=
  if_neg (by rw [Phase.not_terminal_of_active h]; decide)

/-! ## The number of transitions -/

/-- The parse that stands at `s` ends after `n` transitions and not before. -/
def EndsAfter (n : Nat) (s : State) : Prop :=
  (transitions n s).status.phase.terminal = true ∧ ∀ k, k < n → (transitions k s).status.phase.terminal = false

theorem EndsAfter.zero {s : State} (h : s.status.phase.terminal = true) : EndsAfter 0 s :=
  ⟨h, fun _ hk => absurd hk (Nat.not_lt_zero _)⟩

theorem EndsAfter.succ {s : State} {n : Nat} (hactive : s.status.phase.active = true) (h : EndsAfter n (transition s)) :
    EndsAfter (n + 1) s := by
  refine ⟨h.1, fun k hk => ?_⟩
  cases k with
  | zero => exact Phase.not_terminal_of_active hactive
  | succ k => exact h.2 k (Nat.lt_of_succ_lt_succ hk)

/-- The transitions the walk needs besides those that emit: a TARGET and a TCLOSE for each target left (R145). -/
def State.targetsLeft (s : State) : Nat :=
  match s.status.phase with
  | .target => 2 * (s.dfuse.tcnt.toNat - s.walk.tidx.toNat)
  | .element | .tclose => 2 * (s.dfuse.tcnt.toNat - s.walk.tidx.toNat) - 1
  | .idle | .suffix | .sufcrc | .dfusePrefix | .plain | .done | .failed => 0

theorem targetsLeft_of_terminal {s : State} (h : s.status.phase.terminal = true) : s.targetsLeft = 0 := by
  unfold State.targetsLeft
  cases hph : s.status.phase <;> simp_all [Phase.terminal]

/-- The walk from `s` ends after `n` transitions, within its bounds (R145). -/
structure WalkEndsAfter (n : Nat) (s : State) : Prop where
  ends  : EndsAfter n s
  kind  : (transitions n s).status.kind = s.status.kind
  dfuse : (transitions n s).dfuse = s.dfuse
  count : n ≤ s.targetsLeft + (descriptorsFrom n s).length
  room  : n = 0 ∨ s.walk.cur.toNat + 8 * (descriptorsFrom n s).length + 16 ≤ s.flen.toNat

/-- CUR lies in the body while the walk goes on (R146). -/
theorem State.Inv.cur_in_body {s : State} (h : s.Inv) (hw : s.status.phase.walks = true) :
    s.walk.cur.toNat + 16 ≤ s.flen.toNat := by
  obtain ⟨-, -, -, -, -, -, -, ⟨hwalk, -⟩, -⟩ := h
  refine (hwalk ?_).2.1
  revert hw
  cases s.status.phase <;> simp [Phase.walks]

theorem State.Inv.tidx_lt {s : State} (h : s.Inv) (hw : s.status.phase.walks = true) :
    s.walk.tidx.toNat < s.dfuse.tcnt.toNat := by
  obtain ⟨-, -, -, -, -, -, -, ⟨hwalk, -⟩, -⟩ := h
  refine (hwalk ?_).2.2.2
  revert hw
  cases s.status.phase <;> simp [Phase.walks]

/-- One transition of the walk is paid for by an element emitted, or by TARGET or TCLOSE; an element takes eight bytes
or more. -/
theorem transition_pays {s : State} (h : s.Inv) (hw : s.status.phase.walks = true) :
    (transition s).targetsLeft + 1 ≤ s.targetsLeft + (transition s).emitted.length ∧
    ((transition s).status.phase.terminal = true ∧ (transition s).emitted = [] ∨
      (transition s).status.phase.walks = true ∧
        s.walk.cur.toNat + 8 * (transition s).emitted.length ≤ (transition s).walk.cur.toNat) := by
  have htidx := h.tidx_lt hw
  obtain ⟨hdfuse, -⟩ := transition_walk_keeps hw
  have hone : 1 ≤ s.targetsLeft := by
    unfold State.targetsLeft
    cases hph : s.status.phase <;> simp [hph, Phase.walks] at hw ⊢ <;> omega
  cases transition_walkStep h hw with
  | fails hnext hout =>
    rw [emitted_of_quiet hout]
    have hterm : (transition s).status.phase.terminal = true := by rw [hnext]; rfl
    exact ⟨by rw [targetsLeft_of_terminal hterm]; exact hone, .inl ⟨hterm, rfl⟩⟩
  | enters hph hnext hout hcur htend htidx' =>
    rw [emitted_of_quiet hout]
    refine ⟨?_, .inr ⟨by obtain hnext | hnext := hnext <;> rw [hnext] <;> rfl, ?_⟩⟩
    · obtain hnext | hnext := hnext <;> simp only [State.targetsLeft, hnext, hph, hdfuse, htidx'] <;> omega
    · rw [hcur, State.spanStart]
      simp
  | emits hph hnext hout hoff hcur htend htidx' =>
    rw [emitted_of_valid hout]
    refine ⟨?_, .inr ⟨by obtain hnext | hnext := hnext <;> rw [hnext] <;> rfl, ?_⟩⟩
    · obtain hnext | hnext := hnext <;> simp [State.targetsLeft, hnext, hph, hdfuse, htidx']
    · simp [hcur]
  | closes hph hend hnext hout hcur htidx' =>
    rw [emitted_of_quiet hout]
    obtain hnext | hnext := hnext
    · refine ⟨?_, .inr ⟨by rw [hnext]; rfl, by simp [hcur]⟩⟩
      simp only [State.targetsLeft, hnext, hph, hdfuse, htidx', List.length_nil]
      omega
    · have hterm : (transition s).status.phase.terminal = true := by rw [hnext]; rfl
      exact ⟨by rw [targetsLeft_of_terminal hterm]; exact hone, .inl ⟨hterm, rfl⟩⟩

theorem walk_ends {s : State} : s.Inv → s.status.phase.walks = true → ∃ n, WalkEndsAfter n s := by
  induction s using parse_induction with
  | hrest s hinactive => exact fun _ hw => by simp [Phase.active_of_walks hw] at hinactive
  | hstep s hactive ih =>
    intro h hw
    obtain ⟨hpay, hgo⟩ := transition_pays h hw
    obtain ⟨hdfuse, hkind⟩ := transition_walk_keeps hw
    have hbody := h.cur_in_body hw
    obtain ⟨hterm, hnone⟩ | ⟨hw', hmove⟩ := hgo
    · have hnil : descriptorsFrom 1 s = [] := by rw [descriptorsFrom_active hactive, hnone]; rfl
      rw [hnone, targetsLeft_of_terminal hterm] at hpay
      exact ⟨1, .succ hactive (.zero hterm), hkind, hdfuse, by rw [hnil]; exact hpay, .inr (by rw [hnil]; exact hbody)⟩
    · obtain ⟨n, hends, hkind', hdfuse', hcount, hroom⟩ := ih (transition_inv h) hw'
      have hn : n ≠ 0 := by
        rintro rfl
        have hterm := hends.1
        simp [transitions, Phase.not_terminal_of_active (Phase.active_of_walks hw')] at hterm
      have hflen := transition_flen s
      refine ⟨n + 1, hends.succ hactive, hkind'.trans hkind, hdfuse'.trans hdfuse, ?_, .inr ?_⟩
      all_goals
        rw [descriptorsFrom_active hactive, List.length_append]
        have := hroom.resolve_left hn
        rw [hflen] at this
        omega

/-- The parse from `s` ends after at most `c` transitions, or on the DfuSe path after at most `c + 2 * TCNT + NE`
(R145). -/
def EndsWithin (c : Nat) (s : State) : Prop :=
  ∃ n, EndsAfter n s ∧ ((transitions n s).status.kind = false → n ≤ c) ∧
    ((transitions n s).status.kind = true →
      n ≤ c + 2 * (transitions n s).dfuse.tcnt.toNat + (descriptorsFrom n s).length ∧
      (descriptorsFrom n s).length ≤ (s.flen.toNat - 27) / 8)

theorem endsWithin_of_terminal {s : State} (h : s.status.phase.terminal = true) (c : Nat) : EndsWithin c s :=
  ⟨0, .zero h, fun _ => Nat.zero_le _, fun _ => ⟨Nat.zero_le _, Nat.zero_le _⟩⟩

/-- One more transition that emits nothing. -/
theorem EndsWithin.succ {s : State} {c : Nat} (hactive : s.status.phase.active = true)
    (hout : (transition s).status.outValid = false) (h : EndsWithin c (transition s)) : EndsWithin (c + 1) s := by
  obtain ⟨n, hends, hplain, hdfuse⟩ := h
  have hsame : descriptorsFrom (n + 1) s = descriptorsFrom n (transition s) := by
    rw [descriptorsFrom_active hactive, emitted_of_quiet hout, List.nil_append]
  rw [transition_flen] at hdfuse
  refine ⟨n + 1, hends.succ hactive, fun hk => Nat.succ_le_succ (hplain hk), fun hk => ?_⟩
  obtain ⟨hcount, hroom⟩ := hdfuse hk
  rw [hsame]
  exact ⟨by rw [transitions]; omega, hroom⟩

/-- The walk begins at offset 11 with all targets left (R136). -/
theorem walk_endsWithin {s : State} (h : s.Inv) (hph : s.status.phase = .target) (htidx : s.walk.tidx = 0)
    (hcur : s.walk.cur = 11) : EndsWithin 0 s := by
  obtain ⟨-, ⟨-, hkind⟩, -⟩ := h.atPhase hph
  obtain ⟨n, hends, hkind', hdfuse, hcount, hroom⟩ := walk_ends h (by rw [hph]; rfl)
  have hn : n ≠ 0 := by
    rintro rfl
    have hterm := hends.1
    simp [transitions, hph, Phase.terminal] at hterm
  have hfit := hroom.resolve_left hn
  have hleft : s.targetsLeft = 2 * s.dfuse.tcnt.toNat := by simp [State.targetsLeft, hph, htidx]
  have hstart : s.walk.cur.toNat = 11 := by rw [hcur]; rfl
  refine ⟨n, hends, fun hk => ?_, fun _ => ⟨?_, ?_⟩⟩
  · exact absurd ((hkind'.trans hkind).symm.trans hk) (by decide)
  · rw [hdfuse]
    omega
  · omega

/-- PLAIN ends the parse with one transition, on the plain path (R137). -/
theorem plain_endsWithin {s : State} (h : s.Inv) (hph : s.status.phase = .plain) : EndsWithin 1 s := by
  obtain ⟨-, ⟨-, hkind⟩, -⟩ := h.atPhase hph
  have heq : transition s = transPlain s.quiet := by rw [transition_eq_phaseRule, hph]; rfl
  have hends : EndsAfter 1 s := .succ (by rw [hph]; rfl) (.zero (by rw [heq]; rfl))
  have hkind' : (transitions 1 s).status.kind = false := (congrArg (·.status.kind) heq).trans hkind
  exact ⟨1, hends, fun _ => le_rfl, fun hk => absurd (hkind'.symm.trans hk) (by decide)⟩

theorem EndsWithin.mono {s : State} {c c' : Nat} (h : EndsWithin c s) (hc : c ≤ c') : EndsWithin c' s := by
  obtain ⟨n, hends, hplain, hdfuse⟩ := h
  refine ⟨n, hends, fun hk => (hplain hk).trans hc, fun hk => ?_⟩
  obtain ⟨hcount, hroom⟩ := hdfuse hk
  exact ⟨by omega, hroom⟩

/-- The phases before the path is decided. -/
def earlyPhases : List Phase := [.suffix, .sufcrc, .dfusePrefix]

/-- Before the path is decided nothing is emitted (R35). -/
theorem transition_early_quiet {s : State} (h : s.Inv) (hph : s.status.phase ∈ earlyPhases) :
    (transition s).status.outValid = false := by
  obtain ⟨-, -, -, -, ⟨-, -, hout⟩, -⟩ := transition_inv h
  have hedge := phaseMovesAlongTheEdges s (by rintro hidle; simp [hidle, earlyPhases] at hph)
  by_contra hvalid
  have hmem := hout (by simpa using hvalid)
  simp only [earlyPhases, List.mem_cons, List.not_mem_nil, or_false] at hph hmem
  obtain hph | hph | hph := hph <;> obtain hnext | hnext | hnext := hmem <;> rw [hph, hnext] at hedge <;> simp at hedge

/-- One transition before the path is decided: the parse is over, or it goes on in an active phase. -/
theorem EndsWithin.early {s : State} {c : Nat} (h : s.Inv) (hph : s.status.phase ∈ earlyPhases)
    (hgoes : (transition s).status.phase.active = true → EndsWithin c (transition s)) : EndsWithin (c + 1) s := by
  have hactive : s.status.phase.active = true := by
    revert hph
    cases s.status.phase <;> decide
  refine .succ hactive (transition_early_quiet h hph) ?_
  have hidle : s.status.phase ≠ .idle := by rintro hidle; simp [hidle, earlyPhases] at hph
  exact (Phase.active_or_terminal (transition_ne_idle hidle)).elim hgoes (endsWithin_of_terminal · c)

/-- Where PREFIX begins the walk, it begins at offset 11 with the first target (R136). -/
theorem transition_prefix_begins {s : State} (hph : s.status.phase = .dfusePrefix)
    (hnext : (transition s).status.phase = .target) :
    (transition s).walk.tidx = 0 ∧ (transition s).walk.cur = 11 ∧ (transition s).walk.tsum = 0 := by
  have hadvance := transition_advance s
  generalize transition s = t at hnext hadvance
  cases hadvance with
  | fails => simp at hnext
  | beginsWalk => exact ⟨rfl, rfl, rfl⟩
  | findsPlain => simp [State.foundPlain] at hnext
  | rests hrest => simp [hph] at hrest
  | readsSuffix hph' | judges hph' | emitsPlain hph' | enters hph' | emits hph' | closes hph' => simp [hph] at hph'

theorem prefix_endsWithin {s : State} (h : s.Inv) (hph : s.status.phase = .dfusePrefix) : EndsWithin 2 s := by
  refine .early h (by simp [hph, earlyPhases]) fun hactive => ?_
  have hedge := phaseMovesAlongTheEdges s (by simp [hph])
  simp only [hph, List.mem_cons, List.not_mem_nil, or_false] at hedge
  obtain hplain | htarget | hfailed := hedge
  · exact plain_endsWithin (transition_inv h) hplain
  · obtain ⟨htidx, hcur, -⟩ := transition_prefix_begins hph htarget
    exact (walk_endsWithin (transition_inv h) htarget htidx hcur).mono (by decide)
  · simp [hfailed, Phase.active] at hactive

theorem sufcrc_endsWithin {s : State} (h : s.Inv) (hph : s.status.phase = .sufcrc) : EndsWithin 3 s := by
  refine .early h (by simp [hph, earlyPhases]) fun _ => prefix_endsWithin (transition_inv h) ?_
  have hedge := phaseMovesAlongTheEdges s (by simp [hph])
  simpa [hph] using hedge

theorem suffix_endsWithin {s : State} (h : s.Inv) (hph : s.status.phase = .suffix) : EndsWithin 4 s := by
  refine .early h (by simp [hph, earlyPhases]) fun hactive => sufcrc_endsWithin (transition_inv h) ?_
  have hedge := phaseMovesAlongTheEdges s (by simp [hph])
  simp only [hph, List.mem_cons, List.not_mem_nil, or_false] at hedge
  exact hedge.resolve_right fun hfailed => by simp [hfailed, Phase.active] at hactive

/-- Settles O39: three transitions to the path, one for PLAIN, and the walk's own count. -/
theorem parseEndsWithinTheBound : Obligations.ParseEndsWithinTheBound := by
  intro s h hph
  obtain ⟨n, ⟨hend, hfirst⟩, hplain, hdfuse⟩ := suffix_endsWithin h hph
  exact ⟨n, hend, hfirst, hplain, hdfuse⟩

/-! ## The order of the descriptors -/

/-- Where a descriptor may still come from: past CUR by a header at least, and of a later target or a later element
(R147). -/
def State.Ahead (s : State) (d : Descriptor) : Prop :=
  match s.status.phase with
  | .target => s.walk.cur.toNat + 8 ≤ d.off.toNat ∧ s.walk.tidx.toNat ≤ d.tgt.index.toNat
  | .element => s.walk.cur.toNat + 8 ≤ d.off.toNat ∧
      (s.walk.tidx.toNat < d.tgt.index.toNat ∨ d.tgt = s.desc.tgt ∧ s.walk.eidx.toNat ≤ d.elem.toNat)
  | .tclose => s.walk.cur.toNat + 8 ≤ d.off.toNat ∧ s.walk.tidx.toNat < d.tgt.index.toNat
  | .idle | .suffix | .sufcrc | .dfusePrefix | .plain | .done | .failed => True

theorem State.Inv.inside {s : State} (h : s.Inv) (hph : s.status.phase = .element ∨ s.status.phase = .tclose) :
    s.InsideTarget := by
  obtain hph | hph := hph
  · exact (h.atPhase hph).2.2.1
  · exact (h.atPhase hph).2.2

/-- The descriptor a transition of the walk emits is ahead of the state before it. -/
theorem ahead_of_emitted {s : State} {d : Descriptor} (h : s.Inv) (hw : s.status.phase.walks = true)
    (hd : d ∈ (transition s).emitted) : s.Ahead d := by
  cases transition_walkStep h hw with
  | fails _ hout | enters _ _ hout | closes _ _ _ hout => simp [emitted_of_quiet hout] at hd
  | emits hph hnext hout hoff hcur htend htidx htgt helem =>
    rw [emitted_of_valid hout, List.mem_singleton] at hd
    subst hd
    simp only [State.Ahead, hph]
    exact ⟨hoff.ge, .inr ⟨htgt, helem.ge⟩⟩

/-- What is ahead of the state after a transition of the walk is ahead of the state before it. -/
theorem ahead_of_ahead {s : State} {d : Descriptor} (h : s.Inv) (hw : s.status.phase.walks = true)
    (hterm : (transition s).status.phase.terminal = false) (hd : (transition s).Ahead d) : s.Ahead d := by
  cases transition_walkStep h hw with
  | fails hnext => simp [hnext, Phase.terminal] at hterm
  | enters hph hnext hout hcur htend htidx =>
    have hindex := ((transition_inv h).inside hnext).index
    have hstart : s.walk.cur.toNat ≤ s.spanStart := Nat.le_add_right _ _
    simp only [State.Ahead, hph]
    obtain hnext | hnext := hnext <;> simp only [State.Ahead, hnext] at hd
    · obtain ⟨hoff, hlater | ⟨hsame, -⟩⟩ := hd
      · omega
      · rw [hsame]
        omega
    · omega
  | emits hph hnext hout hoff hcur htend htidx htgt helem heidx =>
    simp only [State.Ahead, hph]
    obtain hnext | hnext := hnext <;> simp only [State.Ahead, hnext] at hd
    · obtain ⟨hoff', hlater | ⟨hsame, hlater⟩⟩ := hd
      · omega
      · exact ⟨by omega, .inr ⟨hsame.trans htgt, by omega⟩⟩
    · omega
  | closes hph hend hnext hout hcur htidx =>
    simp only [State.Ahead, hph]
    obtain hnext | hnext := hnext
    · simp only [State.Ahead, hnext] at hd
      omega
    · simp [hnext, Phase.terminal] at hterm

theorem ahead_of_mem {n : Nat} {s : State} {d : Descriptor} (h : s.Inv) (hd : d ∈ descriptorsFrom n s) : s.Ahead d := by
  induction n generalizing s with
  | zero => cases hd
  | succ n ih =>
    cases hw : s.status.phase.walks with
    | false =>
      unfold State.Ahead
      cases hph : s.status.phase <;> simp [hph, Phase.walks] at hw ⊢
    | true =>
      rw [descriptorsFrom_active (Phase.active_of_walks hw), List.mem_append] at hd
      obtain hd | hd := hd
      · exact ahead_of_emitted h hw hd
      · refine ahead_of_ahead h hw ?_ (ih (transition_inv h) hd)
        by_contra hterm
        simp [descriptorsFrom_terminal (Bool.eq_true_of_not_eq_false hterm)] at hd

/-- A descriptor just emitted in a target comes before whatever is ahead (R147). -/
theorem desc_before_ahead {s : State} {d : Descriptor} (h : s.Inv) (hout : s.status.outValid = true)
    (hph : s.status.phase = .element ∨ s.status.phase = .tclose) (hd : s.Ahead d) :
    s.desc.off.toNat + s.desc.size.toNat + 8 ≤ d.off.toNat ∧
      (s.desc.tgt.index.toNat < d.tgt.index.toNat ∨ (s.desc.tgt = d.tgt ∧ s.desc.elem.toNat < d.elem.toNat)) := by
  have hinside := h.inside hph
  obtain ⟨hend, helem, -⟩ := hinside.desc hout
  have hindex := hinside.index
  obtain hph | hph := hph <;> simp only [State.Ahead, hph] at hd
  · obtain ⟨hoff, hlater | ⟨hsame, hlater⟩⟩ := hd
    · omega
    · exact ⟨by omega, .inr ⟨hsame.symm, by omega⟩⟩
  · omega

/-- OUT_VALID = 1 says that the parse is inside a target, or over (R35). -/
theorem State.Inv.phase_of_outValid {s : State} (h : s.Inv) (hout : s.status.outValid = true) :
    (s.status.phase = .element ∨ s.status.phase = .tclose) ∨ s.status.phase = .done := by
  obtain ⟨-, -, -, -, ⟨-, -, hphase⟩, -⟩ := h
  simpa [or_assoc] using hphase hout

/-- A transition that emits leads into a target's span, or is PLAIN's (R137, R139). -/
theorem transition_emits {s : State} (h : s.Inv) (hout : (transition s).status.outValid = true) :
    ((transition s).status.phase = .element ∨ (transition s).status.phase = .tclose) ∨
      s.status.phase = .plain ∧ transition s = transPlain s.quiet := by
  refine ((transition_inv h).phase_of_outValid hout).imp_right fun hdone => ?_
  have hadvance := transition_advance s
  generalize transition s = t at hout hdone hadvance
  cases hadvance with
  | fails => simp at hdone
  | emitsPlain hph => exact ⟨hph, rfl⟩
  | enters => simp at hout
  | emits => obtain ⟨-, hnext⟩ | ⟨-, hnext⟩ := emitElement_phase_cases (s := s.quiet) <;> simp [hnext] at hdone
  | closes => simp at hout
  | readsSuffix | judges | findsPlain | beginsWalk | rests => cases hout

/-- An emitted descriptor's data lies in the body (R147). -/
theorem emitted_in_body {s : State} {d : Descriptor} (h : s.Inv) (hd : d ∈ (transition s).emitted) :
    d.off.toNat + d.size.toNat + 16 ≤ s.flen.toNat := by
  cases hout : (transition s).status.outValid with
  | false => simp [emitted_of_quiet hout] at hd
  | true =>
    rw [emitted_of_valid hout, List.mem_singleton] at hd
    subst hd
    obtain hph | ⟨hph, heq⟩ := transition_emits h hout
    · have hinside := (transition_inv h).inside hph
      have hend := (hinside.desc hout).1
      have hcur := hinside.cur
      have hbody := hinside.body
      rw [transition_flen] at hbody
      omega
    · obtain ⟨-, -, -, hlen⟩ := h.atPhase hph
      have hflen := s.flen.isLt
      have hoff : (transition s).desc.off.toNat = 0 := by rw [heq]; rfl
      have hsize : (transition s).desc.size.toNat = s.flen.toNat - 16 := by
        rw [heq, transPlain, quiet_bodyEnd, narrow_bodyEnd hlen, BitVec.toNat_ofNat, Nat.mod_eq_of_lt (by omega)]
      omega

/-- Settles O40: each emitted descriptor ends where CUR stands, and every later one is ahead. -/
theorem descriptorsComeInFileOrder : Obligations.DescriptorsComeInFileOrder := by
  intro n
  induction n with
  | zero => exact fun s _ => ⟨.nil, fun d hd => by cases hd⟩
  | succ n ih =>
    intro s h
    have hinv := transition_inv h
    obtain ⟨hpair, hbody⟩ := ih (transition s) hinv
    rw [descriptorsFrom]
    split
    · exact ⟨.nil, fun d hd => by cases hd⟩
    · refine ⟨List.pairwise_append.2 ⟨?_, hpair, fun d hd e he => ?_⟩, fun d hd => ?_⟩
      · unfold State.emitted
        split <;> simp
      · cases hout : (transition s).status.outValid with
        | false => simp [emitted_of_quiet hout] at hd
        | true =>
          rw [emitted_of_valid hout, List.mem_singleton] at hd
          subst hd
          obtain hph | hdone := hinv.phase_of_outValid hout
          · exact desc_before_ahead hinv hout hph (ahead_of_mem hinv he)
          · simp [descriptorsFrom_terminal (s := transition s) (by rw [hdone]; rfl)] at he
      · obtain hd | hd := List.mem_append.1 hd
        · exact emitted_in_body h hd
        · rw [← transition_flen s]
          exact hbody d hd

end Sys2Proof.Machine
end

section
/-!
SUPPORT. A parse that reaches DONE (41_parser.md R146, R148): its descriptors, followed from the state it stands at to
its end, tile the spans of the targets.
-/

namespace Sys2Proof.Machine

/-! ## All descriptors of a parse, and its end -/

/-- More transitions than the parse has left emit nothing more. -/
theorem descriptorsFrom_stable (s : State) (hidle : s.status.phase ≠ .idle) :
    ∀ n m, s.fuel ≤ n → s.fuel ≤ m → descriptorsFrom n s = descriptorsFrom m s := by
  induction s using parse_induction with
  | hrest s hinactive =>
    have hterm := (Phase.active_or_terminal hidle).resolve_left (by simp [hinactive])
    intro n m _ _
    rw [descriptorsFrom_terminal hterm, descriptorsFrom_terminal hterm]
  | hstep s hactive ih =>
    have hlt := transition_fuel_lt hactive
    intro n m hn hm
    obtain ⟨n, rfl⟩ := Nat.exists_eq_succ_of_ne_zero (by omega : n ≠ 0)
    obtain ⟨m, rfl⟩ := Nat.exists_eq_succ_of_ne_zero (by omega : m ≠ 0)
    rw [descriptorsFrom_active hactive, descriptorsFrom_active hactive,
      ih (transition_ne_idle hidle) n m (by omega) (by omega)]

/-- The descriptors that the parse that stands at `s` still emits (R147). -/
def State.descriptors (s : State) : List Descriptor := descriptorsFrom transitionLimit s

theorem descriptors_of_active {s : State} (h : s.status.phase.active = true) :
    s.descriptors = (transition s).emitted ++ (transition s).descriptors := by
  have hidle := Phase.ne_idle_of_active h
  rw [State.descriptors, State.descriptors,
    descriptorsFrom_stable s hidle _ (transitionLimit + 1) (fuel_le_limit s) (Nat.le_succ_of_le (fuel_le_limit s)),
    descriptorsFrom_active h]

theorem descriptors_of_terminal {s : State} (h : s.status.phase.terminal = true) : s.descriptors = [] :=
  descriptorsFrom_terminal h _

/-- The loop of PRS.RUN ends where its transitions end. -/
theorem transitionsUntil_runStop_stable (s : State) (hactive : s.status.phase.active = true) :
    ∀ n m, s.fuel ≤ n → s.fuel ≤ m → transitionsUntil runStop n s = transitionsUntil runStop m s := by
  induction s using parse_induction with
  | hrest s hinactive => simp [hinactive] at hactive
  | hstep s _ ih =>
    have hlt := transition_fuel_lt hactive
    have hidle := Phase.ne_idle_of_active hactive
    intro n m hn hm
    obtain ⟨n, rfl⟩ := Nat.exists_eq_succ_of_ne_zero (by omega : n ≠ 0)
    obtain ⟨m, rfl⟩ := Nat.exists_eq_succ_of_ne_zero (by omega : m ≠ 0)
    refine ite_congr rfl (fun _ => rfl) fun hgoes => ?_
    exact ih ((Phase.active_or_terminal (transition_ne_idle hidle)).resolve_right hgoes) n m (by omega) (by omega)

/-- The end of an active parse is the state after the next transition, or the end of the parse from there. -/
theorem parseEnd_cases {s : State} (h : s.status.phase.active = true) :
    (transition s).status.phase.terminal = true ∧ parseEnd s = transition s ∨
      (transition s).status.phase.active = true ∧ parseEnd s = parseEnd (transition s) := by
  have hidle := Phase.ne_idle_of_active h
  have hfuel := fuel_le_limit s
  have heq : parseEnd s =
      if runStop (transition s) then transition s else parseEnd (transition s) :=
    transitionsUntil_runStop_stable s h _ (transitionLimit + 1) hfuel (Nat.le_succ_of_le hfuel)
  obtain hactive | hterm := Phase.active_or_terminal (transition_ne_idle hidle)
  · refine .inr ⟨hactive, heq.trans (if_neg ?_)⟩
    rw [runStop, Phase.not_terminal_of_active hactive]
    decide
  · exact .inl ⟨hterm, heq.trans (if_pos hterm)⟩

/-- Induction along a parse that reaches DONE with end `e`: what holds there, and of a state when it holds after its
transition. -/
theorem done_induction {e : State} {P : State → Prop} (hend : P e)
    (hstep : ∀ s, s.Inv → s.status.phase.active = true → (transition s).status.phase ≠ .failed →
      P (transition s) → P s) (he : e.status.phase = .done) (s : State) :
    s.Inv → s.status.phase.active = true → parseEnd s = e → P s := by
  induction s using parse_induction with
  | hrest s hinactive => exact fun _ hactive => by simp [hinactive] at hactive
  | hstep s hactive ih =>
    intro h _ hs
    obtain ⟨-, heq⟩ | ⟨hgoes, heq⟩ := parseEnd_cases hactive
    · have ht : transition s = e := heq.symm.trans hs
      exact hstep s h hactive (by simp [ht, he]) (ht ▸ hend)
    · exact hstep s h hactive (by rintro hf; simp [hf, Phase.active] at hgoes)
        (ih (transition_inv h) hgoes (heq.symm.trans hs))

/-! ## The elements of one target -/

/-- The descriptors of the target that the walk is at. -/
def State.ownDescriptors (s : State) : List Descriptor :=
  s.descriptors.filter fun d => d.tgt.index.toNat = s.walk.tidx.toNat

/-- The elements left of the target that the walk is at tile what is left of its span (R148). -/
def State.TilesTarget (s : State) : Prop :=
  match s.status.phase with
  | .target => tiles s.spanStart s.spanEnd s.ownDescriptors
  | .element | .tclose => tiles s.walk.cur.toNat s.walk.tend.toNat s.ownDescriptors
  | .idle | .suffix | .sufcrc | .dfusePrefix | .plain | .done | .failed => True

/-- Once a target is closed, no descriptor of it comes (R147). -/
theorem no_descriptor_of_closed {s : State} {k : Nat} (h : s.Inv)
    (hph : s.status.phase = .target ∧ k < s.walk.tidx.toNat ∨ s.status.phase = .done) :
    s.descriptors.filter (fun d => d.tgt.index.toNat = k) = [] := by
  rw [List.filter_eq_nil_iff]
  intro d hd
  obtain ⟨hph, hlt⟩ | hdone := hph
  · have hahead := ahead_of_mem h hd
    simp only [State.Ahead, hph] at hahead
    simp only [decide_eq_true_eq]
    omega
  · rw [descriptors_of_terminal (by rw [hdone]; rfl)] at hd
    cases hd

theorem tilesTarget_step {s : State} (h : s.Inv) (hactive : s.status.phase.active = true)
    (hok : (transition s).status.phase ≠ .failed) (ht : (transition s).TilesTarget) : s.TilesTarget := by
  cases hw : s.status.phase.walks with
  | false =>
    unfold State.TilesTarget
    cases hph : s.status.phase <;> simp [hph, Phase.walks] at hw ⊢
  | true =>
    have hdescs := descriptors_of_active hactive
    cases transition_walkStep h hw with
    | fails hnext => exact absurd hnext hok
    | enters hph hnext hout hcur htend htidx =>
      have hown : s.ownDescriptors = (transition s).ownDescriptors := by
        rw [State.ownDescriptors, hdescs, emitted_of_quiet hout, List.nil_append, ← htidx]
        rfl
      simp only [State.TilesTarget, hph, hown, ← hcur, ← htend]
      obtain hnext | hnext := hnext <;> simpa only [State.TilesTarget, hnext] using ht
    | emits hph hnext hout hoff hcur htend htidx htgt =>
      have hindex := (h.inside (.inl hph)).index
      have hown : s.ownDescriptors = (transition s).desc :: (transition s).ownDescriptors := by
        rw [State.ownDescriptors, hdescs, emitted_of_valid hout, List.singleton_append, List.filter_cons_of_pos,
          ← htidx]
        · rfl
        · rw [htgt, hindex]
          exact decide_eq_true rfl
      simp only [State.TilesTarget, hph, hown, tiles, ← hcur, ← htend]
      refine ⟨hoff, ?_⟩
      obtain hnext | hnext := hnext <;> simpa only [State.TilesTarget, hnext] using ht
    | closes hph hend hnext hout hcur htidx =>
      have hown : s.ownDescriptors = [] := by
        rw [State.ownDescriptors, hdescs, emitted_of_quiet hout, List.nil_append]
        exact no_descriptor_of_closed (transition_inv h) (hnext.imp_left fun hnext => ⟨hnext, by omega⟩)
      simp only [State.TilesTarget, hph, hown, tiles]
      exact hend

/-- From any active state of a parse that reaches DONE the elements left of the target tile the rest of its span
(R148). -/
theorem tilesTarget {s : State} (h : s.Inv) (hactive : s.status.phase.active = true)
    (hdone : (parseEnd s).status.phase = .done) : s.TilesTarget :=
  done_induction (P := State.TilesTarget) (by simp [State.TilesTarget, hdone]) (fun _ => tilesTarget_step) hdone s h
    hactive rfl

/-! ## The sum over a whole parse -/

/-- The bytes of these elements, headers and data. -/
def elementBytes (ds : List Descriptor) : Nat := (ds.map fun d => 8 + d.size.toNat).sum

/-- Elements that tile FILE[p, e) have as many bytes (R148). -/
theorem tiles_elementBytes {p e : Nat} {ds : List Descriptor} (h : tiles p e ds) : p + elementBytes ds = e := by
  induction ds generalizing p with
  | nil => exact h
  | cons d ds ih =>
    have hrest := ih h.2
    rw [elementBytes] at hrest ⊢
    rw [List.map_cons, List.sum_cons]
    omega

/-- The elements still to come make up what is left of the target's span and what TSUM still gains up to its value
`total` (R146). -/
def State.SumsTo (total : Nat) (s : State) : Prop :=
  match s.status.phase with
  | .target => s.walk.tsum.toNat + elementBytes s.descriptors = total
  | .element | .tclose =>
    s.walk.tsum.toNat + s.walk.cur.toNat + elementBytes s.descriptors = total + s.walk.tend.toNat
  | .done => s.status.kind = true ∧ s.walk.tsum.toNat = total
  | .plain | .failed => False
  | .suffix | .sufcrc | .dfusePrefix => elementBytes s.descriptors = total
  | .idle => True

theorem sumsTo_walk_step {s : State} {total : Nat} (h : s.Inv) (hw : s.status.phase.walks = true)
    (hok : (transition s).status.phase ≠ .failed) (ht : (transition s).SumsTo total) : s.SumsTo total := by
  have hdescs := descriptors_of_active (Phase.active_of_walks hw)
  cases transition_walkStep h hw with
  | fails hnext => exact absurd hnext hok
  | enters hph hnext hout hcur htend htidx htsum =>
    have hspan : s.spanEnd = s.spanStart + s.targetHdr.tsize.toNat := rfl
    rw [emitted_of_quiet hout, List.nil_append] at hdescs
    simp only [State.SumsTo, hph, hdescs]
    obtain hnext | hnext := hnext <;> simp only [State.SumsTo, hnext] at ht <;> omega
  | emits hph hnext hout hoff hcur htend htidx htgt helem heidx htsum =>
    rw [emitted_of_valid hout, List.singleton_append] at hdescs
    have hbytes : elementBytes s.descriptors =
        8 + (transition s).desc.size.toNat + elementBytes (transition s).descriptors := by rw [hdescs]; rfl
    simp only [State.SumsTo, hph]
    obtain hnext | hnext := hnext <;> simp only [State.SumsTo, hnext] at ht <;> omega
  | closes hph hend hnext hout hcur htidx htsum =>
    rw [emitted_of_quiet hout, List.nil_append] at hdescs
    simp only [State.SumsTo, hph, hdescs]
    obtain hnext | hnext := hnext <;> simp only [State.SumsTo, hnext] at ht
    · omega
    · have hnil := descriptors_of_terminal (s := transition s) (by rw [hnext]; rfl)
      rw [hnil]
      simp only [elementBytes, List.map_nil, List.sum_nil]
      omega

theorem sumsTo_step {s : State} {total : Nat} (h : s.Inv) (hactive : s.status.phase.active = true)
    (hok : (transition s).status.phase ≠ .failed) (ht : (transition s).SumsTo total) : s.SumsTo total := by
  cases hw : s.status.phase.walks with
  | true => exact sumsTo_walk_step h hw hok ht
  | false =>
    have hdescs := descriptors_of_active hactive
    have hidle := Phase.ne_idle_of_active hactive
    have hedge := phaseMovesAlongTheEdges s hidle
    cases hph : s.status.phase with
    | plain =>
      obtain ⟨-, ⟨-, hkind⟩, -⟩ := h.atPhase hph
      have heq : transition s = transPlain s.quiet := by rw [transition_eq_phaseRule, hph]; rfl
      rw [heq] at ht
      exact absurd (ht.1.symm.trans hkind) (by decide)
    | suffix | sufcrc =>
      rw [emitted_of_quiet (transition_early_quiet h (by simp [hph, earlyPhases])), List.nil_append] at hdescs
      simp only [hph, List.mem_cons, List.not_mem_nil, or_false] at hedge
      simp_all [State.SumsTo]
    | dfusePrefix =>
      rw [emitted_of_quiet (transition_early_quiet h (by simp [hph, earlyPhases])), List.nil_append] at hdescs
      simp only [hph, List.mem_cons, List.not_mem_nil, or_false] at hedge
      obtain hnext | hnext | hnext := hedge
      · simp [State.SumsTo, hnext] at ht
      · obtain ⟨-, -, htsum⟩ := transition_prefix_begins hph hnext
        simpa [State.SumsTo, hnext, hph, hdescs, htsum] using ht
      · exact absurd hnext hok
    | target | element | tclose => simp [hph, Phase.walks] at hw
    | idle | done | failed => simp [hph, Phase.active] at hactive

/-- Over a whole DfuSe parse that reaches DONE the elements make up TSUM (R148, R146). -/
theorem sumsTo_tsum {s : State} (h : s.Inv) (hactive : s.status.phase.active = true)
    (hdone : (parseEnd s).status.phase = .done) (hkind : (parseEnd s).status.kind = true) :
    s.SumsTo (parseEnd s).walk.tsum.toNat :=
  done_induction (P := State.SumsTo (parseEnd s).walk.tsum.toNat) (by simp [State.SumsTo, hdone, hkind])
    (fun _ => sumsTo_step) hdone s h hactive rfl

/-- Settles O41: `tilesTarget` at a target's start and inside it, and `sumsTo_tsum` over the whole parse. -/
theorem elementsTileTheirTarget : Obligations.ElementsTileTheirTarget := by
  refine ⟨fun s h hph hdone => ?_, fun s h hph hdone => ?_, fun s h hph hdone hkind => ?_⟩
  · intro nb start tsize own
    have htiles := tilesTarget h (by rw [hph]; rfl) hdone
    have hnb : s.cfg.nb = nb := nb_eq s.cfg
    have hstart : s.spanStart = start := by rw [State.spanStart, Config.targetHdrLen, hnb]
    have hend : s.spanEnd = start + tsize := by rw [State.spanEnd, hstart, State.targetHdr, targetHdrAt, hnb]
    simp only [State.TilesTarget, hph, hstart, hend] at htiles
    have hsum : start + elementBytes s.ownDescriptors = start + tsize := tiles_elementBytes htiles
    exact ⟨htiles, Nat.add_left_cancel hsum⟩
  · have htiles := tilesTarget h (by rw [hph]; rfl) hdone
    have hindex := (h.inside (.inl hph)).index
    simp only [State.TilesTarget, hph, State.ownDescriptors, ← hindex, BitVec.toNat_inj] at htiles
    exact htiles
  · have hsum := sumsTo_tsum h (by rw [hph]; rfl) hdone hkind
    simp only [State.SumsTo, hph] at hsum
    exact hsum

end Sys2Proof.Machine
end

section
/-!
SUPPORT. Register access and control (42_control.md R170 to R174): RD, WR, FCLR and SRST command by command, the family's frame, and
the statements on them.
-/

namespace Sys2Proof.Machine

/-! ## The words of RD and WR -/

/-- REG is the field at bit 21 of word 0 (R80). -/
theorem packWord_reg : ∀ reg : BitVec 5,
    packWord 0x20 reg 0 = 0x80000000 ||| (reg.setWidth 32 <<< 21) ∧
    packWord 0x21 reg 0 = 0x84000000 ||| (reg.setWidth 32 <<< 21) := by decide

theorem word0_rd (r : Reg) : (Instr.rd r).word0 = 0x80000000 ||| (r.num.setWidth 32 <<< 21) := (packWord_reg r.num).1

theorem word0_wr (r : Reg) (v : Word) : (Instr.wr r v).word0 = 0x84000000 ||| (r.num.setWidth 32 <<< 21) :=
  (packWord_reg r.num).2

/-! ## RD -/

/-- Registers 12 to 29 are all of the parser's (R22). -/
theorem num_of_isParser {r : Reg} (h : r.isParser = true) : 12 ≤ r.num.toNat ∧ r.num.toNat ≤ 29 := by
  revert h
  cases r <;> decide

theorem existsIn_eq_true {c : Config} {r : Reg} (hr : r.num ≠ 31)
    (h : c.hasParser = true ∨ ¬ (12 ≤ r.num.toNat ∧ r.num.toNat ≤ 29)) : r.existsIn c = true := by
  have hr31 : r ≠ .r31 := by
    rintro rfl
    exact hr rfl
  obtain hc | hout := h
  · simp [Reg.existsIn, hr31, hc]
  · have hparser : r.isParser = false := Bool.eq_false_of_not_eq_true (mt num_of_isParser hout)
    simp [Reg.existsIn, hr31, hparser]

/-- A register that exists can be read: only number 31 has no access (R22, R48). -/
theorem legal_rd {c : Config} {r : Reg} (h : r.existsIn c = true) : (Instr.rd r).legal c = true := by
  have haccess : r.access ≠ .none := by
    cases r with
    | r31 => simp [Reg.existsIn] at h
    | _ => nofun
  simp [Instr.legal, Instr.wellFormed, Instr.isParser, h, haccess]

/-- A legal RD runs in a fault too and only responds the register (R170, R195). -/
theorem exec_rd {r : Reg} {s : State} (h : (Instr.rd r).legal s.cfg = true) :
    exec (.rd r) s = .next (s.respond (s.readReg r)) := by
  rw [exec_eq_runCommand, runCommand_performs h (.inr rfl)]
  rfl

/-- The fields of OTGT in one number (R45). -/
theorem TargetTag.toNat_word (t : TargetTag) :
    t.word.toNat = t.index.toNat + 2 ^ 8 * t.alt.toNat + 2 ^ 16 * (if t.named then 1 else 0) := by
  have hbit : (bit t.named).toNat = if t.named then 1 else 0 := by cases t.named <;> rfl
  rw [TargetTag.word, BitVec.toNat_append, ← Nat.shiftLeft_add_eq_or_of_lt t.index.isLt, BitVec.toNat_append,
    ← Nat.shiftLeft_add_eq_or_of_lt t.alt.isLt, BitVec.toNat_append,
    ← Nat.shiftLeft_add_eq_or_of_lt (bit t.named).isLt, hbit]
  simp only [Nat.shiftLeft_eq, BitVec.toNat_ofNat]
  omega

/-- Settles O42: RD is legal exactly where the register exists, and `readReg` is the statement's table. -/
theorem rdAnswersTheRegister : Obligations.RdAnswersTheRegister := by
  refine ⟨rfl, fun r s => ⟨congrArg (fun w => [w]) (word0_rd r), fun w v hopc hw => ?_,
    fun hr hparser => exec_rd (legal_rd (existsIn_eq_true hr hparser)), fun h => ?_, rfl, ?_, rfl, ?_, rfl,
    s.desc.tgt.toNat_word, rfl, rfl⟩⟩
  · exact step_deliver_of_not_matching (r := ⟨0x20, .rd, .r⟩) (by decide) hopc hw v s
  · rw [← word0_rd]
    exact exec_illegal (by simp [Instr.legal, existsIn_eq_false h])
  · rw [State.readReg]
    cases s.record.code <;> rfl
  · have hbyte (b : Byte) : (b.setWidth 32).toNat = b.toNat := BitVec.toNat_setWidth_of_le (by decide)
    simp only [State.readReg, hbyte]

/-! ## WR -/

theorem Phase.active_eq_false_iff_mem (p : Phase) : p.active = false ↔ p ∈ [Phase.idle, .done, .failed] := by
  cases p <;> decide

/-- WR is refused only for FLEN in an active phase (R171, R172). -/
theorem wrRule_of_inactive {r : Reg} {s : State} (h : r = .flen → s.status.phase.active = false) (v : Word) :
    wrRule r v s = s.writeReg r v :=
  if_neg fun ⟨hr, hactive⟩ => by simp [h hr] at hactive

theorem wrRule_of_active {s : State} (h : s.status.phase.active = true) (v : Word) :
    wrRule .flen v s = raise .sequenceError 0 0 (Instr.wr .flen v).word0 s := if_pos ⟨rfl, h⟩

section
variable {r : Reg} {s : State} (hr : r.access = .readWrite)
include hr

theorem exec_wr_rejected (hf : s.status.fault = true) (v : Word) : exec (.wr r v) s = .next s.respondStatus :=
  exec_rejected (legal_wr hr v _) rfl hf

theorem exec_wr_performed (hf : s.status.fault = false) (v : Word) :
    exec (.wr r v) s = .next (wrRule r v s).respondStatus :=
  exec_performed (legal_wr hr v _) nofun (.inl hf)

theorem exec_wr_writes (hf : s.status.fault = false) (h : r = .flen → s.status.phase.active = false) (v : Word) :
    exec (.wr r v) s = .next (s.writeReg r v).respondStatus := by
  rw [exec_wr_performed hr hf, wrRule_of_inactive h]

end

/-- Settles O43: a legal WR is rejected, refused or performed, and without the parser the phase is IDLE. -/
theorem wrWritesTheRegister : Obligations.WrWritesTheRegister := by
  intro v s
  refine ⟨fun r => congrArg (fun w => [w, v]) (word0_wr r v), fun w v' hopc hw => ?_, fun r hr => ?_,
    fun hf r hr => exec_wr_rejected ?_ hf v, fun hf => ?_, fun hf hph => ?_, fun hf hph => ?_, fun hinv hc hf => ?_⟩
  · exact step_deliver_of_not_matching (r := ⟨0x21, .wr, .rw⟩) (by decide) hopc hw v' s
  · rw [← word0_wr r v]
    exact exec_illegal (by simp [Instr.legal, Instr.wellFormed, access_ne_readWrite hr])
  · revert r
    decide
  · have writes {r : Reg} (hr : r.access = .readWrite) (hne : r ≠ .flen) := exec_wr_writes hr hf (absurd · hne) v
    exact ⟨writes (r := .acc) rfl nofun, writes (r := .cnt) rfl nofun, writes (r := .base) rfl nofun,
      writes (r := .len) rfl nofun, writes (r := .exp) rfl nofun⟩
  · exact exec_wr_writes rfl hf (fun _ => (Phase.active_eq_false_iff_mem _).2 hph) v
  · have hactive : s.status.phase.active = true := by
      rwa [← Phase.active_eq_false_iff_mem, Bool.not_eq_false] at hph
    rw [exec_wr_performed rfl hf, wrRule_of_active hactive, raise_eq_faulted hf]
    rfl
  · have hidle : s.status.phase = .idle := by_contra fun hph => by simp [hinv.hasParser hph] at hc
    exact exec_wr_writes rfl hf (fun _ => by rw [hidle]; rfl) v

/-! ## FCLR and SRST -/

/-- FCLR is never rejected (R173, R195). -/
theorem exec_fclr (s : State) : exec .fclr s = .next (clearFault s).respondStatus :=
  exec_performed (by simp [Instr.legal, Instr.wellFormed, Instr.isParser]) nofun (.inr rfl)

/-- SRST is never rejected, and STATUS is 0 after it (R174, R195). -/
theorem exec_srst (s : State) : exec .srst s = .next (s.hardReset.respond 0) := by
  have hlegal : Instr.srst.legal s.cfg = true := by simp [Instr.legal, Instr.wellFormed, Instr.isParser]
  have hstatus : s.hardReset.statusWord = 0 := statusWord_resetIn s.cfg
  rw [exec_performed hlegal nofun (.inr rfl), ruleOf, State.respondStatus, hstatus]

/-- Settles O44: `clearFault` is the statement's record and flag. -/
theorem fclrClearsTheRecord : Obligations.FclrClearsTheRecord := by
  intro s
  refine ⟨rfl, fun w v hopc hw => ?_, exec_fclr s⟩
  exact step_deliver_of_ne_pattern (r := ⟨0x3E, .fclr, .n⟩) (by decide) rfl hopc hw v s

/-- Settles O45: the rule is the reset of R220, after which STATUS is 0. -/
theorem srstResets : Obligations.SrstResets := by
  intro s
  refine ⟨rfl, fun w v hopc hw => ?_, exec_srst s⟩
  exact step_deliver_of_ne_pattern (r := ⟨0x3F, .srst, .n⟩) (by decide) rfl hopc hw v s

/-! ## The family's frame -/

/-- What WR leaves alone: the host's side, PEND, the parser's registers and STATUS but FAULT. -/
def State.outsideWr (s : State) :=
  (s.hostSide, s.pend, s.dfuse, s.suffix, s.desc, s.walk, { s.status with fault := false })

theorem outsideWr_ignoresFault : IgnoresFault State.outsideWr := fun _ _ _ _ => rfl

theorem writeReg_outsideWr (r : Reg) (v : Word) (s : State) : (s.writeReg r v).outsideWr = s.outsideWr := by
  simp [State.outsideWr]

/-- The registers that RD does not compute from FAULT or the fault record (R29, R40, R41). -/
theorem readReg_ignoresFault_of_not_mem {q : Reg} (hq : q ∉ [Reg.status, .ecode, .eoff, .eexp, .eact]) :
    IgnoresFault fun s => s.readReg q := by
  intro s rec b vs
  cases q with
  | status | ecode | eoff | eexp | eact => simp at hq
  | _ => rfl

/-- A WR leaves the other registers alone, RES where it is not WR ACC (R171, R25). -/
theorem readReg_writeReg_other {q r : Reg} (hne : q ≠ r) (hres : q = .res → r ≠ .acc) (v : Word) (s : State) :
    (s.writeReg r v).readReg q = s.readReg q := by
  cases q with
  | acc | cnt | base | len | exp | flen => exact readReg_writeReg_of_ne rfl hne.symm v s
  | res =>
    have hacc : (s.writeReg r v).crc.acc = s.crc.acc := readReg_writeReg_of_ne (r := .acc) rfl (hres rfl) v s
    simp [State.readReg, State.res, hacc]
  | _ => simp [State.readReg, State.statusWord]

/-- A WR of `r`, performed or not, leaves the other registers alone that are not the fault's. -/
theorem exec_wr_readReg {q r : Reg} {v : Word} {s t : State} (h : exec (.wr r v) s = .next t)
    (hq : q ∉ [Reg.status, .ecode, .eoff, .eexp, .eact]) (hne : q ≠ r) (hres : q = .res → r ≠ .acc) :
    t.readReg q = s.readReg q :=
  have hf := readReg_ignoresFault_of_not_mem hq
  exec_keeps hf h (wrRule_keeps hf (readReg_writeReg_other hne hres v s))

/-- Of the legal WRs only WR FLEN can raise (R172). -/
theorem exec_wr_keepsFault {r : Reg} {v : Word} {s t : State} (h : exec (.wr r v) s = .next t)
    (hl : (Instr.wr r v).legal s.cfg = true) (hne : r ≠ .flen) : KeepsFault t s := by
  obtain hkept | ⟨-, -, hground⟩ := exec_fault h (by simp)
  · exact hkept
  · simp [RaiseGround, hl, hne] at hground

/-- Settles O52: RD, FCLR and SRST answer one state each, and each clause on WR is a view that `wrRule` keeps. -/
theorem controlFamilyFrame : Obligations.ControlFamilyFrame := by
  intro r v s t
  refine ⟨fun h hl => ?rd, fun h hl => ?wr, fun h => ?fclr, fun h => ?srst⟩
  case rd =>
    cases (exec_rd hl).symm.trans h
    rfl
  case wr =>
    have hkept := exec_keeps outsideWr_ignoresFault h
      (wrRule_keeps outsideWr_ignoresFault (writeReg_outsideWr r v s))
    simp only [State.outsideWr, State.hostSide, Prod.mk.injEq] at hkept
    obtain ⟨⟨hcfg, hfile, hport⟩, hpend, hdfuse, hsuffix, hdesc, hwalk, hflags⟩ := hkept
    have hstatus : t.status = { s.status with fault := t.status.fault } :=
      congrArg (fun f : Status => { f with fault := t.status.fault }) hflags
    refine ⟨⟨hcfg, hport, hpend, fun a => by rw [hfile]⟩, hdfuse, hsuffix, hdesc, hwalk, hstatus,
      fun q _ hq => ?_, fun hacc => ?_, fun hflen => ?_⟩
    · simp only [List.mem_cons, List.not_mem_nil, or_false, not_or] at hq
      obtain ⟨hne, hres, hfault⟩ := hq
      exact exec_wr_readReg h (by simpa using hfault) hne (absurd · hres)
    · have hres : r ≠ .res := by
        rintro rfl
        cases hl
      exact exec_wr_readReg h (by simp) hres.symm (fun _ => hacc)
    · obtain ⟨hfault, hrecord⟩ := exec_wr_keepsFault h hl hflen
      exact ⟨hrecord, by rw [hstatus, hfault]⟩
  case fclr =>
    cases (exec_fclr s).symm.trans h
    exact ⟨⟨rfl, rfl, rfl, fun _ => rfl⟩, rfl, rfl, rfl, rfl, rfl, rfl, rfl⟩
  case srst =>
    cases (exec_srst s).symm.trans h
    exact ⟨rfl, rfl, fun _ => rfl⟩

end Sys2Proof.Machine
end

section
/-!
SUPPORT. Faults (60_exceptions.md R193 to R199): what a recorded fault keeps a command from doing, what clears it, and the one move of
the host at which the machine stops.
-/

namespace Sys2Proof.Machine

/-! ## While a fault is recorded -/

/-- Every command but the five of R195 is rejected while a fault is recorded. -/
theorem runsInFault_eq_false {i : Instr}
    (h : i ≠ .nop ∧ (∀ r, i ≠ .rd r) ∧ i ≠ .prsPeek ∧ i ≠ .fclr ∧ i ≠ .srst) : runsInFault i = false := by
  obtain ⟨hnop, hrd, hpeek, hfclr, hsrst⟩ := h
  cases i with
  | rd r => exact absurd rfl (hrd r)
  | nop | prsPeek | fclr | srst => contradiction
  | _ => rfl

/-- Settles O9: a legal command that does not run in a fault is rejected, and FAULT is bit 7 of STATUS. -/
theorem commandsAreRejectedWhileAFaultIsRecorded : Obligations.CommandsAreRejectedWhileAFaultIsRecorded := by
  intro i s hf hl hi
  exact ⟨exec_rejected hl (runsInFault_eq_false hi) hf, (statusWord_getLsbD s 7).trans hf⟩

/-- FCLR and SRST leave an empty record (R173, R174). -/
theorem exec_record_cleared {i : Instr} {s t : State} (h : exec i s = .next t) (hi : i = .fclr ∨ i = .srst) :
    t.record = ⟨.none, 0, 0, 0⟩ := by
  obtain rfl | rfl := hi
  · cases (exec_fclr s).symm.trans h
    rfl
  · cases (exec_srst s).symm.trans h
    rfl

/-- Settles O10: FCLR and SRST clear both, and by `exec_fault` any other command raises only where no fault was. -/
theorem firstFaultWins : Obligations.FirstFaultWins := by
  intro i s t hf h
  split
  next hi => exact ⟨exec_fault_cleared h (by simpa using hi), exec_record_cleared h hi⟩
  next hi =>
    obtain ⟨hfault, hrecord⟩ | ⟨hclear, -⟩ := exec_fault h (by simpa using hi)
    · exact ⟨hfault.trans hf, hrecord⟩
    · simp [hf] at hclear

/-! ## The one stop -/

/-- A delivered word always leads to a next state: PEND is empty when a command executes (R87, R198). -/
theorem onWord_answers (w : Word) (s : State) : ∃ t, (onWord w s).outcome = .next t := by
  have answers (w0 v : Word) {u : State} (hpend : u.pend = none) : ∃ t, (execute w0 v u).outcome = .next t := by
    obtain ⟨t, ht, -⟩ := execute_keeps_port w0 v hpend
    exact ⟨t, ht⟩
  obtain ⟨w0, -, heq⟩ | ⟨-, -, heq⟩ | ⟨hpend, -, heq⟩ := onWord_cases w s <;> rw [heq]
  · exact answers w0 w rfl
  · exact ⟨_, rfl⟩
  · exact answers w 0 hpend

/-- The host's write is refused exactly below FLEN in an active phase (R77, R225; assumption log 8). -/
theorem hostWrite_answers_iff (a : Word) (b : Byte) (s : State) :
    (∃ t, hostWrite a b s = .next t) ↔ (!(s.status.phase.active && decide (a.toNat < s.flen.toNat))) = true := by
  unfold hostWrite
  split
  next hbreach => simp [hbreach]
  next hduty => simp [hduty]

/-- Settles O13: of the host's moves a word always leads to a next state, and only a write into FILE can be refused. -/
theorem onlyAHostWriteDuringAParseStops : Obligations.OnlyAHostWriteDuringAParseStops := by
  intro s
  rw [step_eq_outcome, takeMove, State.hostKeepsFile]
  cases s.port with
  | nil => exact ⟨fun _ => rfl, fun _ => ⟨_, rfl⟩⟩
  | cons m rest =>
    cases m with
    | word w => exact ⟨fun _ => rfl, fun _ => onWord_answers w _⟩
    | rst | wordAbandoned w => exact ⟨fun _ => rfl, fun _ => ⟨_, rfl⟩⟩
    | fileByte a b => exact hostWrite_answers_iff a b { s with port := rest }

end Sys2Proof.Machine
end

section
/-!
SUPPORT. Reset and the host's moves (70_reset_and_hazards.md R220 to R228): how the host brings the block back to reset, what each
of its moves does, and the registers right after a reset.
-/

namespace Sys2Proof.Machine

/-! ## Resynchronising -/

/-- Executed words, legal or not, leave the configuration, FILE and the port alone, leave PEND empty and give one response. -/
theorem execute_responds_once (w0 v : Word) {s : State} (hpend : s.pend = none) :
    ∃ t r, (execute w0 v s).outcome = .next t ∧ t.hostSide = s.hostSide ∧ t.pend = none ∧
      t.responses = s.responses ++ [r] := by
  obtain ⟨t, ht, -, hempty⟩ := execute_keeps_port w0 v hpend
  cases hd : decodeWords w0 v with
  | ok i =>
    rw [execute_outcome_of_ok hd] at ht ⊢
    obtain ⟨hresponds, -⟩ := everyCommandRespondsOnce
    obtain ⟨t', r, ht', hr, -⟩ := hresponds i s
    cases ht.symm.trans ht'
    exact ⟨t, r, ht, exec_keeps hostSide_ignoresFault ht (ruleOf_hostSide i s), hempty, hr⟩
  | error e =>
    rw [execute_outcome_of_error hd, ← illegalCommand_eq_afterIllegal] at ht ⊢
    cases ht
    exact ⟨_, _, rfl, by simp [illegalCommand, State.hostSide], hempty, illegalCommand_responses w0 s⟩

/-- A word that is no first word of two completes a command, be it the operand of a pending one or a command by itself
(R82, R226). -/
theorem step_completes {s : State} {w : Word} {rest : List HostMove} (hport : s.port = .word w :: rest)
    (hone : isTwoWord w = false) :
    ∃ t r, step s = .next t ∧ t.hostSide = (s.cfg, s.file, rest) ∧ t.pend = none ∧
      t.responses = s.responses ++ [r] := by
  cases hpend : s.pend with
  | some w0 =>
    rw [step_of_operand hport hpend]
    exact execute_responds_once w0 w (s := { s with port := rest, pend := none }) rfl
  | none =>
    rw [step_of_one_word hport hpend hone]
    exact execute_responds_once w 0 (s := { s with port := rest }) hpend

/-- The word of SRST, with nothing pending, resets the block and responds 0 (R174). -/
theorem step_srst {s : State} {rest : List HostMove} (hport : s.port = .word 0xFC000000 :: rest)
    (hpend : s.pend = none) : step s = .next ({ s with port := rest }.hardReset.respond 0) := by
  have hdecode : decodeWords 0xFC000000 0 = .ok .srst := rfl
  rw [step_of_one_word hport hpend (by decide), execute_outcome_of_ok hdecode, exec_srst]

/-- Settles O11: whatever command NOP's word completes, it leaves PEND empty, so the next word is SRST. -/
theorem nopThenSrstResynchronises : Obligations.NopThenSrstResynchronises := by
  intro s rest hport
  obtain ⟨t, r, ht, hhost, hpend, hresponses⟩ := step_completes hport (by decide)
  simp only [State.hostSide, Prod.mk.injEq] at hhost
  obtain ⟨hcfg, hfile, htport⟩ := hhost
  refine ⟨t, _, r, ht, step_srst htport hpend, hresponses, ?_⟩
  simp [State.hardReset, State.respond, hcfg, hfile, hresponses]

/-! ## The host's other moves -/

/-- RST resets the block, in the middle of a command too, and gives no response (R220; assumption log 10). -/
theorem step_rst {s : State} {m : HostMove} {rest : List HostMove} (hport : s.port = m :: rest)
    (hm : m = .rst ∨ ∃ w, m = .wordAbandoned w) : step s = .next { s with port := rest }.hardReset := by
  obtain rfl | ⟨w, rfl⟩ := hm <;> simp [step_eq_outcome, takeMove, hport, Fetched.outcome]

theorem step_fileByte {s : State} {a : Word} {b : Byte} {rest : List HostMove} (hport : s.port = .fileByte a b :: rest) :
    step s = hostWrite a b { s with port := rest } := by
  simp [step_eq_outcome, takeMove, hport, Fetched.outcome]

/-- Outside FILE[0, FLEN) of an active phase the host's write is a write of FILE (R77). -/
theorem hostWrite_of_duty {s : State} {a : Word} (b : Byte)
    (h : s.status.phase.active = false ∨ s.flen.toNat ≤ a.toNat) :
    hostWrite a b s = .next { s with file := s.file.write a.toNat b } := by
  refine if_neg ?_
  obtain hinactive | habove := h
  · simp [hinactive]
  · simp [Nat.not_lt.2 habove]

/-- Inside FILE[0, FLEN) of an active phase it is the model's stop (R225; assumption log 8). -/
theorem hostWrite_of_breach {s : State} {a : Word} (b : Byte) (hactive : s.status.phase.active = true)
    (hbelow : a.toNat < s.flen.toNat) : hostWrite a b s = .fault .fileWrittenDuringParse :=
  if_pos (by simp [hactive, hbelow])

/-- Settles O12: the step is the reset or the host's write, which FILE's canonical form makes a change of one byte. -/
theorem hostMovesDoWhatTheyDo : Obligations.HostMovesDoWhatTheyDo := by
  refine ⟨fun s m rest hport hm => step_rst hport hm, fun s a b rest hport hfile hduty => ?_,
    fun s a b rest hport hactive hbelow => ?_⟩
  · rw [step_fileByte hport]
    exact ⟨_, hostWrite_of_duty b hduty, rfl, Memory.read_write hfile b⟩
  · rw [step_fileByte hport]
    exact hostWrite_of_breach b hactive hbelow

/-! ## The registers after a reset -/

/-- A reset clears every register but ACC, the view RES of it, and ID (R22, R220). -/
theorem readReg_resetIn (c : Config) {r : Reg} (hr : r ∉ [Reg.acc, .res, .id]) : (State.resetIn c).readReg r = 0 := by
  cases r with
  | acc | res | id => simp at hr
  | status => exact statusWord_resetIn c
  | otgt => exact (by decide : TargetTag.word ⟨0, 0, false⟩ = 0)
  | _ => rfl

/-- Settles O46: the default configuration's values are computed, and in any configuration they are `readReg_resetIn`. -/
theorem resetValues : Obligations.ResetValues :=
  ⟨by decide, rfl, rfl, fun c => ⟨rfl, fun _ _ hr => readReg_resetIn c hr⟩⟩

/-- Settles O55: a reset state with the empty FILE, which is in canonical form. -/
theorem resetMeetsTheInvariant : Obligations.ResetMeetsTheInvariant := fun c => resetIn_inv c (m := []) rfl [] []

end Sys2Proof.Machine
end
